-- ==== Sys2Proof/Word.lean ====
section
/-!
DEFINITION. Plain words and fixed-size families.

The part has eight feeds, three Control Links and four physical groups of archive memory (00_scope.md,
"Conventions"); state kept once for each of them is kept in `Oct`, `Tri` and `Quad`, structures with one field
a member, so that a state is plain data and reading or writing a member is evaluated by one match.
-/

namespace Sys2Proof

/-- A byte of a link frame, of a packet or of an archive chunk. -/
abbrev Byte := BitVec 8

/-- Feeds F0 to F7 (00_scope.md, "Feeds and masks"). -/
abbrev Feed := Fin 8

/-- Control Links L0 to L2 (00_scope.md, "Links and roles"). -/
abbrev Link := Fin 3

/-- Physical groups 0 to 3 of the Archive Bus (R156). -/
abbrev Group := Fin 4

/-- Every feed, in feed order. -/
def allFeeds : List Feed := [0, 1, 2, 3, 4, 5, 6, 7]

/-- Every link. -/
def allLinks : List Link := [0, 1, 2]

/-- Every physical group. -/
def allGroups : List Group := [0, 1, 2, 3]

section families

variable {α β : Type}

/-- Eight things of one type: one for each feed, or one for each limit set. -/
structure Oct (α : Type) where
  e0 : α
  e1 : α
  e2 : α
  e3 : α
  e4 : α
  e5 : α
  e6 : α
  e7 : α
  deriving DecidableEq, Repr

/-- The member with number `i`. -/
def Oct.get (o : Oct α) (i : Fin 8) : α :=
  match i.val with
  | 0 => o.e0
  | 1 => o.e1
  | 2 => o.e2
  | 3 => o.e3
  | 4 => o.e4
  | 5 => o.e5
  | 6 => o.e6
  | _ => o.e7

/-- `o` with member `i` replaced by `v`. -/
def Oct.set (o : Oct α) (i : Fin 8) (v : α) : Oct α :=
  match i.val with
  | 0 => { o with e0 := v }
  | 1 => { o with e1 := v }
  | 2 => { o with e2 := v }
  | 3 => { o with e3 := v }
  | 4 => { o with e4 := v }
  | 5 => { o with e5 := v }
  | 6 => { o with e6 := v }
  | _ => { o with e7 := v }

/-- `o` with `g` applied to member `i`. -/
def Oct.update (o : Oct α) (i : Fin 8) (g : α → α) : Oct α :=
  o.set i (g (o.get i))

/-- The family whose members are all `a`. -/
def Oct.fill (a : α) : Oct α :=
  ⟨a, a, a, a, a, a, a, a⟩

/-- The family whose member `i` is `g i`. -/
def Oct.tab (g : Fin 8 → α) : Oct α :=
  ⟨g 0, g 1, g 2, g 3, g 4, g 5, g 6, g 7⟩

/-- `g` applied to every member. -/
def Oct.map (o : Oct α) (g : α → β) : Oct β :=
  ⟨g o.e0, g o.e1, g o.e2, g o.e3, g o.e4, g o.e5, g o.e6, g o.e7⟩

/-- The members in order. -/
def Oct.toList (o : Oct α) : List α :=
  [o.e0, o.e1, o.e2, o.e3, o.e4, o.e5, o.e6, o.e7]

/-- Three things of one type: one for each link. -/
structure Tri (α : Type) where
  e0 : α
  e1 : α
  e2 : α
  deriving DecidableEq, Repr

/-- The member with number `i`. -/
def Tri.get (o : Tri α) (i : Fin 3) : α :=
  match i.val with
  | 0 => o.e0
  | 1 => o.e1
  | _ => o.e2

/-- `o` with member `i` replaced by `v`. -/
def Tri.set (o : Tri α) (i : Fin 3) (v : α) : Tri α :=
  match i.val with
  | 0 => { o with e0 := v }
  | 1 => { o with e1 := v }
  | _ => { o with e2 := v }

/-- `o` with `g` applied to member `i`. -/
def Tri.update (o : Tri α) (i : Fin 3) (g : α → α) : Tri α :=
  o.set i (g (o.get i))

/-- The family whose members are all `a`. -/
def Tri.fill (a : α) : Tri α :=
  ⟨a, a, a⟩

/-- The family whose member `i` is `g i`. -/
def Tri.tab (g : Fin 3 → α) : Tri α :=
  ⟨g 0, g 1, g 2⟩

/-- `g` applied to every member. -/
def Tri.map (o : Tri α) (g : α → β) : Tri β :=
  ⟨g o.e0, g o.e1, g o.e2⟩

/-- The members in order. -/
def Tri.toList (o : Tri α) : List α :=
  [o.e0, o.e1, o.e2]

/-- Four things of one type: one for each physical group. -/
structure Quad (α : Type) where
  e0 : α
  e1 : α
  e2 : α
  e3 : α
  deriving DecidableEq, Repr

/-- The member with number `i`. -/
def Quad.get (o : Quad α) (i : Fin 4) : α :=
  match i.val with
  | 0 => o.e0
  | 1 => o.e1
  | 2 => o.e2
  | _ => o.e3

/-- `o` with member `i` replaced by `v`. -/
def Quad.set (o : Quad α) (i : Fin 4) (v : α) : Quad α :=
  match i.val with
  | 0 => { o with e0 := v }
  | 1 => { o with e1 := v }
  | 2 => { o with e2 := v }
  | _ => { o with e3 := v }

/-- `o` with `g` applied to member `i`. -/
def Quad.update (o : Quad α) (i : Fin 4) (g : α → α) : Quad α :=
  o.set i (g (o.get i))

/-- The family whose members are all `a`. -/
def Quad.fill (a : α) : Quad α :=
  ⟨a, a, a, a⟩

/-- The family whose member `i` is `g i`. -/
def Quad.tab (g : Fin 4 → α) : Quad α :=
  ⟨g 0, g 1, g 2, g 3⟩

/-- `g` applied to every member. -/
def Quad.map (o : Quad α) (g : α → β) : Quad β :=
  ⟨g o.e0, g o.e1, g o.e2, g o.e3⟩

/-- The members in order. -/
def Quad.toList (o : Quad α) : List α :=
  [o.e0, o.e1, o.e2, o.e3]

end families

end Sys2Proof
end

