-- ==== Sys2Proof/Syntax.lean ====
section
/-!
DEFINITION. The commands of the Arbecon 3208, whole: one constructor of `Instr` for each row of
spec/opcode_table.json, with the operands the row's rule names.

The rows are the part's steps (95_what_each_step_holds.md). A request row carries its link and the fields of its
payload in the sizes of R197; a payload whose length its kind does not carry is `Payload.wrongLength` (R196, step 3).
-/

namespace Sys2Proof

/-- Feed layouts (chapter 1, section 1.2). -/
inductive Layout where
  | mono
  | stereo
  | surround
  deriving DecidableEq, Repr

/-- One frame of an Audio Lane: six slots of one 24-bit signed sample (chapter 1, section 1.1). -/
structure Samples where
  s1 : BitVec 24
  s2 : BitVec 24
  s3 : BitVec 24
  s4 : BitVec 24
  s5 : BitVec 24
  s6 : BitVec 24
  deriving DecidableEq, Repr

/-- What a lane delivers in one word clock period: a valid frame, or none when the frame is invalid (R1). -/
abbrev LaneFrame := Option Samples

/-- Kinds of Caption Lane packet; `other` is any kind R6 discards. -/
inductive PacketKind where
  | show
  | clear
  | keepalive
  | other
  deriving DecidableEq, Repr

/-- A language tag: three letter codes (R5, R197). -/
structure Tag where
  a : Byte
  b : Byte
  c : Byte
  deriving DecidableEq, Repr

/-- A Caption Lane packet as received (R5): the feed it names (none when it cannot be read, R14), its kind, its declared
length and the body bytes that arrived before it ended. -/
structure Packet where
  feed : Option Feed
  kind : PacketKind
  declared : Nat
  body : List Byte
  deriving DecidableEq, Repr

/-- A link's two strap pins (R195). -/
structure Straps where
  second : Bool
  first : Bool
  deriving DecidableEq, Repr

/-- What the RESET pin does: it is held, or it is released and the straps of the three links are sampled (R195, R201). -/
inductive ResetPin where
  | held
  | released (straps : Tri Straps)
  deriving DecidableEq, Repr

/-- The lanes of an access that read otherwise than the memory holds them: for a word offset of the page, the lanes that are
wrong (log entry 13). -/
abbrev WrongLanes := List (Nat × BitVec 73)

/-- A subtitle requirement (R69, R79). -/
inductive Requirement where
  | none
  | any
  | tag (t : Tag)
  deriving DecidableEq, Repr

/-- The payload of a request: its fields, or the mark that its length is not one its kind carries (R196, step 3). -/
inductive Payload (α : Type) where
  | fits (a : α)
  | wrongLength
  deriving DecidableEq, Repr

/-- The four bytes of a subtitle requirement (R197). -/
structure RequirementField where
  form : Byte
  tag : Tag
  deriving DecidableEq, Repr

/-- SEGMENT_READ (R98). -/
structure SegmentReadArgs where
  slot : Byte
  openTick : Option (BitVec 48)
  deriving DecidableEq, Repr

/-- SEGMENT_LIST (R99). -/
structure SegmentListArgs where
  mask : Byte
  selector : Byte
  after : Option (BitVec 48)
  deriving DecidableEq, Repr

/-- ARCHIVE_READ (R176): the section's byte and the position. -/
structure ArchiveReadArgs where
  part : Byte
  position : BitVec 16
  deriving DecidableEq, Repr

/-- ATTENTION_SET (R200). -/
structure AttentionSetArgs where
  target : Byte
  action : Byte
  deriving DecidableEq, Repr

/-- ANNOUNCE (R69). -/
structure AnnounceArgs where
  kind : Byte
  segmentId : BitVec 32
  mask : Byte
  time : BitVec 32
  limitSet : Byte
  requirement : RequirementField
  deriving DecidableEq, Repr

/-- WITHDRAW (R73). -/
structure WithdrawArgs where
  segmentId : BitVec 32
  kind : Byte
  mask : Byte
  deriving DecidableEq, Repr

/-- LIMITS_WRITE (R97): the set index and the nine fields of R96. -/
structure LimitsWriteArgs where
  index : Byte
  target : BitVec 16
  toleranceAbove : BitVec 16
  toleranceBelow : BitVec 16
  ceiling : Option (BitVec 16)
  minBlocks : BitVec 16
  speechThreshold : BitVec 16
  maxGap : BitVec 16
  minCoverage : BitVec 16
  deadAir : Option (BitVec 16)
  deriving DecidableEq, Repr

/-- POLICY_WRITE (R105). -/
structure PolicyWriteArgs where
  kind : Byte
  mode : Byte
  preRoll : BitVec 16
  postRoll : BitVec 16
  autoHold : Byte
  deriving DecidableEq, Repr

/-- FEED_SET (R4). -/
structure FeedSetArgs where
  feed : Byte
  layout : Byte
  enable : Byte
  deriving DecidableEq, Repr

/-- HOLD_PLACE (R125). -/
structure HoldPlaceArgs where
  first : BitVec 48
  last : BitVec 48
  reason : BitVec 16
  deriving DecidableEq, Repr

/-- HOLD_RELEASE (R128). -/
structure HoldReleaseArgs where
  index : Byte
  number : BitVec 32
  deriving DecidableEq, Repr

/-- INCIDENT_REVIEW (R117). -/
structure IncidentReviewArgs where
  serial : BitVec 32
  release : Byte
  deriving DecidableEq, Repr

/-- EXPORT_START (R179). -/
structure ExportStartArgs where
  mask : Byte
  first : BitVec 48
  last : BitVec 48
  deriving DecidableEq, Repr

/-- SPARE_LANE_SET (R168). -/
structure SpareLaneSetArgs where
  group : Byte
  rowBlock : Byte
  lane : Option Byte
  quiet : Byte
  deriving DecidableEq, Repr

/-- The commands, in the order of spec/opcode_table.json. -/
inductive Instr where
  /-- POWER_ON (R14): the straps of the three links are sampled. -/
  | powerOn (straps : Tri Straps)
  /-- RESET_PIN (R14): the RESET pin is held, or released. -/
  | resetPin (pin : ResetPin)
  /-- WORD_CLOCK_PERIOD (R1): the frame of each Audio Lane in one period. -/
  | wordClockPeriod (frames : Oct LaneFrame)
  /-- LANE_LOCK (R1): the 48th valid frame of the lane. -/
  | laneLock (f : Feed)
  /-- CAPTION_PACKET (R5). -/
  | captionPacket (p : Packet)
  /-- TICK_CLOSE (R8), with XBSY as the Export Unit finds it at the close (R184). -/
  | tickClose (xbsy : Bool)
  /-- CAPTION_STALE (R40). -/
  | captionStale (f : Feed)
  /-- CARRIAGE_ABSENT (R41). -/
  | carriageAbsent (f : Feed)
  /-- HEARTBEAT_LAPSE (R66). -/
  | heartbeatLapse
  /-- SETTLEMENT (R9) of the next handed-over tick on a feed. -/
  | settlement (f : Feed)
  /-- SETTLED_TICK_NOTICE_LM (R27) of a feed. -/
  | settledTickNoticeLm (f : Feed)
  /-- SETTLED_TICK_NOTICE_CC (R44) of a feed. -/
  | settledTickNoticeCc (f : Feed)
  /-- VERDICT (R93) on the records of a feed closed at its last settlement. -/
  | verdict (f : Feed)
  /-- INCIDENT_REPORT (R103): the Incident Unit takes the waiting report number `n`. -/
  | incidentReport (n : Nat)
  /-- RECORD_WRITE_GRANT (R143). -/
  | recordWriteGrant
  /-- RECORD_WRITE_COMPLETION (R146). -/
  | recordWriteCompletion
  /-- ACCESS_TIMEOUT (R165) after `words` words were transferred, `wrong` of them read with wrong lanes. -/
  | accessTimeout (words : Nat) (wrong : WrongLanes)
  /-- SCRUB_READ_GRANT (R174). -/
  | scrubReadGrant
  /-- SCRUB_READ_COMPLETION (R174). -/
  | scrubReadCompletion (wrong : WrongLanes)
  /-- EXPORT_READ_GRANT (R181). -/
  | exportReadGrant
  /-- EXPORT_READ_COMPLETION (R175). -/
  | exportReadCompletion (wrong : WrongLanes)
  /-- TEST_ACCESS_GRANT (R160). -/
  | testAccessGrant
  /-- TEST_ACCESS_COMPLETION (R160). -/
  | testAccessCompletion (wrong : WrongLanes)
  /-- EXPORT_STROBE (R183): XBSY is inactive and the waiting word is strobed. -/
  | exportStrobe
  /-- EXPORT_STALL (R184). -/
  | exportStall
  /-- FRAME_ERROR (R191): the bytes of a transaction that is a frame error. -/
  | frameError (l : Link) (bytes : List Byte)
  /-- UNKNOWN_REQUEST (R196, step 1). -/
  | unknownRequest (l : Link) (kind : Byte) (payload : List Byte)
  /-- REPLY_ARRIVAL (R193) of reply number `n` of those on their way. -/
  | replyArrival (n : Nat)
  /-- FETCH (R194): its payload, and how many bytes the host clocks after its frame. -/
  | fetch (l : Link) (payload : List Byte) (clocked : Nat)
  /-- STATUS (R198). -/
  | status (l : Link) (p : Payload Unit)
  /-- METER (R36) of a feed number. -/
  | meter (l : Link) (p : Payload Byte)
  /-- SEGMENT_READ (R98). -/
  | segmentRead (l : Link) (p : Payload SegmentReadArgs)
  /-- SEGMENT_LIST (R99). -/
  | segmentList (l : Link) (p : Payload SegmentListArgs)
  /-- INCIDENT_FETCH (R115) with an optional start serial. -/
  | incidentFetch (l : Link) (p : Payload (Option (BitVec 32)))
  /-- HOLD_LIST (R134) from a start index. -/
  | holdList (l : Link) (p : Payload Byte)
  /-- LIMITS_READ (R97) of a set index. -/
  | limitsRead (l : Link) (p : Payload Byte)
  /-- POLICY_READ (R105) of a kind. -/
  | policyRead (l : Link) (p : Payload Byte)
  /-- ARCHIVE_READ (R176). -/
  | archiveRead (l : Link) (p : Payload ArchiveReadArgs)
  /-- CAPTURE_READ (R169). -/
  | captureRead (l : Link) (p : Payload Unit)
  /-- ATTENTION_SET (R200). -/
  | attentionSet (l : Link) (p : Payload AttentionSetArgs)
  /-- ATTENTION_CLEAR (R199) of a set of classes. -/
  | attentionClear (l : Link) (p : Payload Byte)
  /-- SCHEDULE_CLAIM (R64). -/
  | scheduleClaim (l : Link) (p : Payload Unit)
  /-- SCHEDULE_YIELD (R65). -/
  | scheduleYield (l : Link) (p : Payload Unit)
  /-- TIME_SYNC (R61) with a station time. -/
  | timeSync (l : Link) (p : Payload (BitVec 32))
  /-- ANNOUNCE (R69). -/
  | announce (l : Link) (p : Payload AnnounceArgs)
  /-- WITHDRAW (R73). -/
  | withdraw (l : Link) (p : Payload WithdrawArgs)
  /-- LIMITS_WRITE (R97). -/
  | limitsWrite (l : Link) (p : Payload LimitsWriteArgs)
  /-- POLICY_WRITE (R105). -/
  | policyWrite (l : Link) (p : Payload PolicyWriteArgs)
  /-- FEED_SET (R4). -/
  | feedSet (l : Link) (p : Payload FeedSetArgs)
  /-- HEARTBEAT_SET (R67) with a limit in ticks. -/
  | heartbeatSet (l : Link) (p : Payload (BitVec 16))
  /-- HOLD_PLACE (R125). -/
  | holdPlace (l : Link) (p : Payload HoldPlaceArgs)
  /-- HOLD_RELEASE (R128). -/
  | holdRelease (l : Link) (p : Payload HoldReleaseArgs)
  /-- INCIDENT_REVIEW (R117). -/
  | incidentReview (l : Link) (p : Payload IncidentReviewArgs)
  /-- EXPORT_START (R179). -/
  | exportStart (l : Link) (p : Payload ExportStartArgs)
  /-- EXPORT_ABORT (R185) of a job number. -/
  | exportAbort (l : Link) (p : Payload (BitVec 32))
  /-- CAPTURE_CLEAR (R169). -/
  | captureClear (l : Link) (p : Payload Unit)
  /-- MEASURE_RESTART (R196). -/
  | measureRestart (l : Link) (p : Payload Unit)
  /-- ARCHIVE_MAP (R158) with a list of physical group numbers, of any length. -/
  | archiveMap (l : Link) (groups : List Byte)
  /-- ARCHIVE_TEST (R159). -/
  | archiveTest (l : Link) (p : Payload Unit)
  /-- ARCHIVE_RECORD (R162). -/
  | archiveRecord (l : Link) (p : Payload Unit)
  /-- ARCHIVE_RESET (R163). -/
  | archiveReset (l : Link) (p : Payload Unit)
  /-- SPARE_LANE_SET (R168). -/
  | spareLaneSet (l : Link) (p : Payload SpareLaneSetArgs)
  deriving DecidableEq, Repr

end Sys2Proof
end

