-- ==== Sys2Proof/Config.lean ====
section
/-!
DEFINITION. What the part fixes (sizes, limits, coefficients) and the free values: constants with no body, which stand for
what the spec leaves unstated. Nothing in Lean can say what a free value is.
-/

namespace Sys2Proof.Config

/-- Word clock periods of a tick (R7). -/
def periodsPerTick : Nat := 4800

/-- The Late Window in ticks (R9). -/
def lateWindow : Nat := 80

/-- Tick records of a full Tick History (R11). -/
def historySize : Nat := 128

/-- Valid frames in a row that lock a lane (R1). -/
def lockRun : Nat := 48

/-- The energy reference Q (R21). -/
def energyReference : Nat := 2 ^ 60

/-- The absolute gate (R22). -/
def absoluteGate : Nat := 115292150461

/-- Histogram bins of an integrator (section 2.4). -/
def histogramBins : Nat := 160

/-- Caption age at which a SHOWN caption is STALE (R40). -/
def staleAge : Nat := 300

/-- Ticks without a packet after which carriage is ABSENT (R41). -/
def carriageWindow : Nat := 50

/-- Milliseconds of a day (R59). -/
def dayMs : Nat := 86400000

/-- Milliseconds of a tick (R59). -/
def tickMs : Nat := 100

/-- Offset in ms up to which the anchor is kept (R62). -/
def stepLimitMs : Nat := 200

/-- The horizon of announcements and holds in ticks (R70, R126). -/
def horizonTicks : Nat := 36000

/-- Entries of a Pending List (R71). -/
def pendingListSize : Nat := 8

/-- Pairs of the Recently Applied list (R74). -/
def recentSize : Nat := 16

/-- Slots of the Segment Table (R79). -/
def segmentSlots : Nat := 128

/-- Summaries of one SEGMENT_LIST reply (R99). -/
def summariesPerReply : Nat := 12

/-- Records of the Incident Log (R112). -/
def logSize : Nat := 256

/-- Records of one INCIDENT_FETCH reply (R115). -/
def recordsPerFetch : Nat := 4

/-- Entries of the Hold Table (R121). -/
def holdEntries : Nat := 64

/-- Holds of one HOLD_LIST reply (R134), and spans or Damaged Page List entries of one ARCHIVE_READ reply (R151, R176). -/
def itemsPerReply : Nat := 8

/-- Spans of the Span List (R142). -/
def spanListSize : Nat := 512

/-- Bytes of a caption event buffer (R141). -/
def captionAreaBytes : Nat := 192

/-- Pages of a physical group (R156). -/
def groupPages : Nat := 524288

/-- Pages of a row block (R156). -/
def rowBlockPages : Nat := 32768

/-- Words of a page (chapter 8, section 8.1). -/
def pageWords : Nat := 1024

/-- Words of a chunk (chapter 8, section 8.1). -/
def chunkWords : Nat := 128

/-- Entries of the Damaged Page List (R171). -/
def damagedListSize : Nat := 64

/-- Jobs of the Export Queue (R178). -/
def exportQueueSize : Nat := 4

/-- Tick closes after which a waiting word stalls its job (R184). -/
def stallTicks : Nat := 50

/-- The top of a 16-bit count that stops (R6, R170). -/
def count16Top : Nat := 65535

/-- The top of a 32-bit count that stops (R112, R147). -/
def count32Top : Nat := 4294967295

/-- FREE VALUE (log entry 11). The 73 lanes of an archive word that nothing has written since the power-on or RESET pin
numbered `epoch`: R177 says that the contents are lost, not what they are. -/
opaque unwrittenLanes (epoch address : Nat) : BitVec 73

/-- FREE VALUE (log entry 14). What the part makes of a byte other than 0 and 1 where R197 has a choice or the byte before a
field that may be absent: one of the two, or none when it answers BAD_ARGUMENT. -/
opaque oddChoice (b : Byte) : Option Bool

/-- FREE VALUE (log entry 15). What the part makes of a requirement field whose first byte is above 2, or whose last three bytes
are not zero under NONE or ANY: a requirement, or none when it answers BAD_ARGUMENT. -/
opaque oddRequirement (r : RequirementField) : Option Requirement

/-- FREE VALUE (log entry 16). The after value of a SEGMENT_LIST that selects CLOSED and leaves the value out. -/
opaque absentAfter : Nat

/-- FREE VALUE (log entry 17). What the 48-bit resolved tick of an ANNOUNCE reply reads when the station time resolves to a
moment before tick 0. -/
opaque tickBeforeZero (r : Int) : BitVec 48

end Sys2Proof.Config
end

