-- ==== Sys2Proof/Machine/State.lean ====
section
/-!
DEFINITION. The state of the part, block by block (00_scope.md, "Blocks"), as plain data, the reasons a step can stop, and
the state after power-on or the RESET pin.

Tables that have free entries (Segment Table, Hold Table, histogram bins, archive memory) are lists of (number, content) in
rising order of number; a number that is not listed is free.
-/

namespace Sys2Proof.Machine

/-- A fault of the machine. -/
inductive Fault where
  /-- Raised by SETTLEMENT when a record is to be opened, no slot of the Segment Table is free and no record may be evicted. R80
  shows that no run of the part reaches such a state; the spec gives no effect there (log entry 31). Safe: a state the part
  does not reach stops. -/
  | segmentTableExhausted
  deriving DecidableEq, Repr

/-- A refusal of the machine. -/
inductive Refusal where
  /-- Raised by `exec` for a command that has no meaning in this model yet. Safe: the machine stops there. -/
  | notModelled (mnemonic : String)
  deriving DecidableEq, Repr

/-! ## Shared records -/

/-- A Segment Table handle: slot index and open tick (R79). -/
structure Handle where
  index : Nat
  openTick : Nat
  deriving DecidableEq, Repr

/-- Segment kinds (R79). -/
inductive SegmentKind where
  | programme
  | adBreak
  | item
  | unscheduled
  deriving DecidableEq, Repr

/-- Announcement kinds (section 4.4): PROGRAMME, BREAK, END, ITEM, ITEM_END. -/
inductive AnnounceKind where
  | programme
  | adBreak
  | ending
  | item
  | itemEnd
  deriving DecidableEq, Repr

/-- A layout and an enable (R3). -/
structure FeedSetting where
  layout : Layout
  enabled : Bool
  deriving DecidableEq, Repr

/-! ## Feed Ingest Unit -/

/-- The lock tracker of a lane (R1). -/
structure Lane where
  locked : Bool
  run : Nat
  deriving DecidableEq, Repr

/-- Two previous inputs and two previous outputs of one filter stage (R16). -/
structure Stage where
  x1 : Int
  x2 : Int
  y1 : Int
  y2 : Int
  deriving DecidableEq, Repr

/-- Weighting filter state of one channel (R17). -/
structure ChannelFilter where
  stage1 : Stage
  stage2 : Stage
  deriving DecidableEq, Repr

/-- Segment membership of a settled tick (R11). -/
structure Membership where
  level1 : Handle
  level2 : Option Handle
  partStart : Bool
  itemStart : Bool
  deriving DecidableEq, Repr

/-- A tick record (R11). It is PROVISIONAL while `membership` is none, SETTLED afterwards (R12). -/
structure TickRecord where
  tick : Nat
  noInput : Bool
  tickEnergy : Nat
  blockEnergy : Nat
  shortTermEnergy : Nat
  shownAny : Bool
  shownTags : List Tag
  stale : Bool
  carriage : Bool
  membership : Option Membership
  deriving DecidableEq, Repr

/-- State of the Feed Ingest Unit (chapter 1). -/
structure Fiu where
  openTick : Nat
  periods : Nat
  baseTick : Nat
  frontier : Option Nat
  settledTo : Oct (Option Nat)
  lanes : Oct Lane
  heard : Oct Bool
  broken : Oct Bool
  settings : Oct FeedSetting
  pendingSettings : Oct (Option FeedSetting)
  filters : Oct (List ChannelFilter)
  captionErrors : Oct Nat
  history : Oct (List TickRecord)
  deriving DecidableEq, Repr

/-! ## Level Meter -/

/-- A histogram bin: block count and energy sum (section 2.4). -/
structure Bin where
  count : Nat
  sum : Nat
  deriving DecidableEq, Repr

/-- An integrator (section 2.4). -/
structure Integrator where
  binding : Option Handle
  bins : List (Nat × Bin)
  qualified : Nat
  active : Nat
  maxMomentary : Int
  maxShortTerm : Option Int
  deriving DecidableEq, Repr

/-- State of the Level Meter (chapter 2). -/
structure Lm where
  energies : Oct (List Nat)
  programme : Oct Integrator
  item : Oct Integrator
  deriving DecidableEq, Repr

/-! ## Caption Checker -/

/-- Caption state (R39). -/
inductive CaptionState where
  | clear
  | shown (t : Tag)
  | stale
  deriving DecidableEq, Repr

/-- The Caption Checker's state of one feed (chapter 3). -/
structure CaptionFeed where
  state : CaptionState
  age : Nat
  carriage : Bool
  lastPacket : Option Nat
  shownAny : Bool
  shownTags : List Tag
  gap : Nat
  gapStart : Option Nat
  gapReported : Bool
  carriageLost : Bool
  deadAir : Nat
  deadAirStart : Option Nat
  deadAirReported : Bool
  previous : Option Handle
  deriving DecidableEq, Repr

/-- State of the Caption Checker. -/
structure Cc where
  feeds : Oct CaptionFeed
  deriving DecidableEq, Repr

/-! ## Schedule Unit -/

/-- A pending entry (R71). -/
structure Entry where
  kind : AnnounceKind
  segmentId : Nat
  limitSet : Nat
  requirement : Requirement
  time : Nat
  tick : Nat
  late : Bool
  deriving DecidableEq, Repr

/-- The time anchor (R59). -/
structure Anchor where
  tick : Nat
  time : Nat
  deriving DecidableEq, Repr

/-- State of the Schedule Unit (chapter 4). `lapseDue` is the model's: a lapse that the last tick close brought about and
HEARTBEAT_LAPSE has not yet taken (log entry 4). -/
structure Su where
  anchor : Option Anchor
  owner : Option Link
  timer : Nat
  limit : Nat
  lists : Oct (List Entry)
  recent : List (Nat × AnnounceKind)
  handed : Option Nat
  lapseDue : Bool
  deriving DecidableEq, Repr

/-! ## Segment Unit -/

/-- A limit set (R96). -/
structure LimitSet where
  target : Int
  toleranceAbove : Int
  toleranceBelow : Int
  ceiling : Option Int
  minBlocks : Nat
  speechThreshold : Int
  maxGap : Nat
  minCoverage : Nat
  deadAir : Option Nat
  deriving DecidableEq, Repr

/-- Segment states (R79): OPEN, SUSPENDED, CLOSED. -/
inductive SegmentState where
  | opened
  | suspended
  | closed
  deriving DecidableEq, Repr

/-- Verdict states (R79). -/
inductive VerdictState where
  | pending
  | done
  deriving DecidableEq, Repr

/-- The eight verdict flags (R79). -/
structure VerdictFlags where
  loudnessHigh : Bool
  loudnessLow : Bool
  shortTermHigh : Bool
  tooShort : Bool
  silent : Bool
  coverageLow : Bool
  lateStart : Bool
  scheduleUnconfirmed : Bool
  deriving DecidableEq, Repr

/-- The results the Level Meter hands at a close (R25). The SILENT indication is the absence of `integrated` with no active
block (R31). -/
structure Loudness where
  qualified : Nat
  active : Nat
  passing : Nat
  maxMomentary : Int
  maxShortTerm : Option Int
  integrated : Option Int
  silent : Bool
  deriving DecidableEq, Repr

/-- A segment record (R79); its index is its number in the table. `latestMember` is the latest member tick that chapter 5 lists
among the Segment Unit's state. -/
structure Segment where
  openTick : Nat
  feed : Feed
  kind : SegmentKind
  segmentId : Option Nat
  state : SegmentState
  latestMember : Option Nat
  lastMember : Option Nat
  partCount : Nat
  itemCount : Nat
  orphanCount : Nat
  enclosing : Option Handle
  limitIndex : Nat
  limits : LimitSet
  requirement : Requirement
  loudness : Option Loudness
  memberTicks : Nat
  speechTicks : Nat
  coveredTicks : Nat
  wrongTicks : Nat
  gapCount : Nat
  longestGap : Nat
  coverage : Option Nat
  deadAirRuns : Nat
  flags : VerdictFlags
  verdict : Option VerdictState
  closeSeq : Option Nat
  cause : Option (AnnounceKind × Nat)
  deriving DecidableEq, Repr

/-- A Settled Tick notice (R13); its feed is the place it is kept at. -/
structure Notice where
  tick : Nat
  membership : Membership
  deriving DecidableEq, Repr

/-- A handed-over tick of a feed and its entries, level-1 first (R75). -/
structure HandedTick where
  tick : Nat
  entries : List Entry
  deriving DecidableEq, Repr

/-- State of the Segment Unit (chapter 5). `inbox` holds the handed-over ticks not yet settled and `noticeLm`, `noticeCc` the notices
not yet handled. -/
structure Sg where
  table : List (Nat × Segment)
  limits : Oct LimitSet
  closeSeq : Nat
  inbox : Oct (List HandedTick)
  noticeLm : Oct (Option Notice)
  noticeCc : Oct (Option Notice)
  deriving DecidableEq, Repr

/-! ## Incident Unit -/

/-- Incident kinds in the order of section 6.1. -/
inductive IncidentKind where
  | loudnessHigh
  | loudnessLow
  | shortTermHigh
  | subtitleGap
  | coverageLow
  | carriageLost
  | deadAir
  | scheduleLost
  | timeStep
  | lateBoundary
  | evidenceDamaged
  | recordStall
  deriving DecidableEq, Repr

/-- Policy modes (R104). -/
inductive Mode where
  | fault
  | warn
  | muted
  deriving DecidableEq, Repr

/-- A policy entry (R104). -/
structure PolicyEntry where
  mode : Mode
  preRoll : Nat
  postRoll : Nat
  autoHold : Bool
  deriving DecidableEq, Repr

/-- The kind a report or an incident names for its segment: a segment kind, or the announcement kind of a LATE_BOUNDARY (R102). -/
inductive NamedKind where
  | segment (k : SegmentKind)
  | announcement (k : AnnounceKind)
  deriving DecidableEq, Repr

/-- A report to the Incident Unit (R102). -/
structure Report where
  kind : IncidentKind
  feed : Option Feed
  handle : Option Handle
  segmentId : Option Nat
  segmentKind : Option NamedKind
  raiseTick : Nat
  subjectFirst : Nat
  subjectLast : Nat
  measured : Option Int
  limit : Option Int
  unconfirmed : Bool
  deriving DecidableEq, Repr

/-- Hold outcomes (R106). -/
inductive HoldOutcome where
  | notRequested
  | placed
  | placedClamped
  | wrongState
  | notFound
  | quota
  | full
  deriving DecidableEq, Repr

/-- An incident record (R106). -/
structure Incident where
  serial : Nat
  kind : IncidentKind
  mode : Mode
  feed : Option Feed
  handle : Option Handle
  segmentId : Option Nat
  segmentKind : Option NamedKind
  raiseTick : Nat
  subjectFirst : Nat
  subjectLast : Nat
  measured : Option Int
  limit : Option Int
  outcome : HoldOutcome
  holdIndex : Option Nat
  holdRange : Option (Nat × Nat)
  unheld : Bool
  unconfirmed : Bool
  reviewed : Bool
  deriving DecidableEq, Repr

/-- State of the Incident Unit (chapter 6). `policy` holds the twelve entries in the order of `IncidentKind`; `reports` the reports
sent and not yet taken (log entry 7). -/
structure Iu where
  log : List Incident
  policy : List PolicyEntry
  nextSerial : Nat
  discardedOpen : Nat
  cursors : Tri Nat
  reports : List Report
  deriving DecidableEq, Repr

/-! ## Retention Unit -/

/-- Owners of a hold (R121). -/
inductive Owner where
  | link (l : Link)
  | incident (serial : Nat)
  | job (number : Nat)
  deriving DecidableEq, Repr

/-- An active hold (R121); its index is its number in the table and its committed pages follow from its range. -/
structure Hold where
  number : Nat
  owner : Owner
  first : Nat
  last : Nat
  reason : Nat
  deriving DecidableEq, Repr

/-- State of the Retention Unit (chapter 7). -/
structure Ru where
  holds : List (Nat × Hold)
  counter : Nat
  healthyPages : Nat
  quota : Nat
  deriving DecidableEq, Repr

/-! ## Recorder -/

/-- The proxy encoder of a feed (R138): running sum of the open group, codes of the complete ones. -/
structure Encoder where
  sum : Int
  codes : List Byte
  deriving DecidableEq, Repr

/-- The caption event buffer of a feed (R141). -/
structure CaptionBuffer where
  bytes : List Byte
  events : Nat
  truncated : Bool
  deriving DecidableEq, Repr

/-- A span (R142). -/
structure Span where
  firstTick : Nat
  firstPage : Nat
  length : Nat
  deriving DecidableEq, Repr

/-- A page to be written (R143): its tick, its 8,192 bytes, first attempt or retry. -/
structure PageWrite where
  tick : Nat
  bytes : List Byte
  retry : Bool
  deriving DecidableEq, Repr

/-- State of the Recorder (chapter 8). `writes` are the page writes requested and not yet granted. -/
structure Rc where
  encoders : Oct Encoder
  captions : Oct CaptionBuffer
  spans : List Span
  writePos : Nat
  writes : List PageWrite
  stall : Bool
  discarded : Nat
  deriving DecidableEq, Repr

/-! ## Archive Controller -/

/-- Archive states (R158). -/
inductive ArchiveState where
  | unmapped
  | mapped
  | testing
  | tested
  | recording
  deriving DecidableEq, Repr

/-- Group states (R157). -/
inductive GroupState where
  | absent
  | untested
  | healthy
  | faulted
  deriving DecidableEq, Repr

/-- What the Archive Controller keeps of a physical group (R157, R160, R170). -/
structure GroupRecord where
  state : GroupState
  corrected : Nat
  uncorrectable : Nat
  faultMark : Bool
  deriving DecidableEq, Repr

/-- A Spare Lane Map entry (R168). -/
structure SpareEntry where
  lane : Option Nat
  quiet : Bool
  deriving DecidableEq, Repr

/-- Kinds of captured error (R169). -/
inductive CaptureKind where
  | corrected
  | uncorrectable
  | timeout
  deriving DecidableEq, Repr

/-- Requesters of the Archive Bus (R164, R169). -/
inductive Requester where
  | recordWrite
  | exportRead
  | scrubRead
  | test
  deriving DecidableEq, Repr

/-- A full Error Capture Record (R169). -/
structure Capture where
  group : Group
  page : Nat
  word : Nat
  syndrome : BitVec 8
  kind : CaptureKind
  requester : Requester
  deriving DecidableEq, Repr

/-- The scrub cursor (R173). -/
structure ScrubCursor where
  index : Nat
  number : Nat
  next : Nat
  deriving DecidableEq, Repr

/-- The test position (R159, R160): slot, page within the group, and whether the page is to be read (after it was written). -/
structure TestPosition where
  slot : Nat
  page : Nat
  reading : Bool
  deriving DecidableEq, Repr

/-- A waiting read of the export or of the scrubber: the tick, its archive page, and the chunks wanted. -/
structure ReadRequest where
  tick : Nat
  page : Nat
  chunks : List Feed
  deriving DecidableEq, Repr

/-- What an access does (R164). -/
inductive AccessKind where
  | record (w : PageWrite) (page : Nat)
  | exportRead (r : ReadRequest)
  | scrub (r : ReadRequest)
  | testWrite
  | testRead
  deriving DecidableEq, Repr

/-- The access in progress: group and page within the group, and whether ARCHIVE_RESET abandoned it (R163). -/
structure Access where
  kind : AccessKind
  group : Group
  page : Nat
  abandoned : Bool
  deriving DecidableEq, Repr

/-- State of the Archive Controller (chapter 9) and of the memory on its bus. -/
structure Ac where
  state : ArchiveState
  bank : List Group
  groups : Quad GroupRecord
  test : Option TestPosition
  spares : Quad (List SpareEntry)
  capture : Option Capture
  damaged : List (Nat × Nat)
  scrub : Option ScrubCursor
  access : Option Access
  exportRequest : Option ReadRequest
  scrubRequest : Option ReadRequest
  testRequest : Bool
  dram : List (Nat × BitVec 73)
  epoch : Nat
  deriving DecidableEq, Repr

/-! ## Export Unit -/

/-- Phases of an export job (R178). -/
inductive Phase where
  | queued
  | lookup
  | reading
  | sending
  | ending
  deriving DecidableEq, Repr

/-- An export job (R178). -/
structure Job where
  number : Nat
  link : Link
  mask : List Feed
  first : Nat
  last : Nat
  pin : Nat
  tick : Nat
  feed : Option Feed
  phase : Phase
  abort : Bool
  sent : Nat
  damaged : Nat
  unavailable : Nat
  absent : Nat
  deriving DecidableEq, Repr

/-- Read outcomes of a chunk (R175). -/
inductive ReadOutcome where
  | clean
  | corrected
  | damaged
  | timeout
  deriving DecidableEq, Repr

/-- What the tick buffer holds for a feed (R181, R182). -/
inductive Buffered where
  | absent
  | unavailable
  | chunk (outcome : ReadOutcome) (words : List (BitVec 64))
  deriving DecidableEq, Repr

/-- How a job ended (R187). -/
inductive EndStatus where
  | done
  | aborted
  | stalled
  deriving DecidableEq, Repr

/-- A link's last ending (R187). -/
structure Ending where
  job : Nat
  status : EndStatus
  sent : Nat
  damaged : Nat
  unavailable : Nat
  absent : Nat
  deriving DecidableEq, Repr

/-- State of the Export Unit (chapter 10). `buffer` is the tick buffer, from the feed whose record is under way on; `unsent` are the words of
that record not yet strobed, the first of them on XD. -/
structure Xu where
  jobs : List Job
  counter : Nat
  buffer : List (Feed × Buffered)
  xd : BitVec 16
  unsent : List (BitVec 16)
  stallTimer : Nat
  endings : Tri (Option Ending)
  deriving DecidableEq, Repr

/-! ## Link Interface -/

/-- Reply status codes in the order of R194. -/
inductive Status where
  | ok
  | clamped
  | replaced
  | pending
  | frameError
  | unknown
  | role
  | notOwner
  | owned
  | noTime
  | tooFar
  | tooLate
  | full
  | quota
  | notFound
  | badArgument
  | wrongState
  deriving DecidableEq, Repr

/-- A field of a reply, by its type in R197. -/
inductive Wire where
  /-- one byte unsigned: a name's place in its list, a number of a feed, link, slot, set, group, row block or lane, a mask, a
  set of classes, or the number of items of a list -/
  | byte (n : Nat)
  /-- one byte: yes or no -/
  | choice (b : Bool)
  /-- two bytes unsigned -/
  | word (n : Nat)
  /-- two bytes, two's complement -/
  | signedWord (i : Int)
  /-- four bytes unsigned -/
  | long (n : Nat)
  /-- six bytes unsigned: a tick number or a close sequence -/
  | tick (n : Nat)
  /-- six bytes, two's complement -/
  | signedTick (i : Int)
  /-- six bytes whose value the spec leaves open (log entry 17) -/
  | openTick (b : BitVec 48)
  /-- a language tag -/
  | tag (t : Tag)
  /-- a subtitle requirement -/
  | requirement (r : Requirement)
  deriving DecidableEq, Repr

/-- A reply: its status and the fields of its payload (R194, R197). -/
structure Reply where
  status : Status
  fields : List Wire
  deriving DecidableEq, Repr

/-- A reply slot (R193). A WAITING slot waits on the request with its number. -/
inductive ReplySlot where
  | empty
  | waiting (kind : Byte) (request : Nat)
  | ready (kind : Byte) (reply : Reply)
  deriving DecidableEq, Repr

/-- A reply on its way from a block to the Link Interface (R193). -/
structure ReplyInFlight where
  link : Link
  request : Nat
  reply : Reply
  deriving DecidableEq, Repr

/-- Link roles (R195). -/
inductive Role where
  | observer
  | scheduler
  | auditor
  | schedulerAuditor
  deriving DecidableEq, Repr

/-- One bit for each attention class, in the order of R199. -/
structure Classes where
  incident : Bool
  warning : Bool
  segment : Bool
  exports : Bool
  schedule : Bool
  archive : Bool
  link : Bool
  deriving DecidableEq, Repr

/-- What the Link Interface keeps for one link (chapter 11). `dataOut` are the bytes driven on the data output in the link's last
transaction (log entry 35). -/
structure LinkState where
  role : Role
  slot : ReplySlot
  flags : Classes
  enables : Classes
  master : Bool
  dataOut : List Byte
  deriving DecidableEq, Repr

/-- State of the Link Interface. `nextRequest` numbers the requests passed on (log entry 3); `resetHeld` says that the RESET pin is held (R190, R201). -/
structure Li where
  links : Tri LinkState
  replies : List ReplyInFlight
  nextRequest : Nat
  resetHeld : Bool
  deriving DecidableEq, Repr

/-! ## The whole part -/

/-- The state of the part: the queue of waiting commands, first in first out, and the eleven blocks. -/
structure State where
  pending : List Instr
  fiu : Fiu
  lm : Lm
  cc : Cc
  su : Su
  sg : Sg
  iu : Iu
  ru : Ru
  rc : Rc
  ac : Ac
  xu : Xu
  li : Li
  deriving DecidableEq, Repr

/-! ## The state after reset -/

/-- A filter stage at zero (R17). -/
def Stage.zero : Stage := ⟨0, 0, 0, 0⟩

/-- A channel's filter state at zero (R17). -/
def ChannelFilter.zero : ChannelFilter := ⟨Stage.zero, Stage.zero⟩

/-- The FIU after power-on (R14): STEREO and enabled, UNLOCKED, histories empty. -/
def Fiu.reset : Fiu where
  openTick := 0
  periods := 0
  baseTick := 0
  frontier := none
  settledTo := Oct.fill none
  lanes := Oct.fill ⟨false, 0⟩
  heard := Oct.fill false
  broken := Oct.fill false
  settings := Oct.fill ⟨.stereo, true⟩
  pendingSettings := Oct.fill none
  filters := Oct.fill [ChannelFilter.zero, ChannelFilter.zero]
  captionErrors := Oct.fill 0
  history := Oct.fill []

/-- An unbound integrator with its fields at the values of R37. -/
def Integrator.unbound : Integrator := ⟨none, [], 0, 0, -999, none⟩

/-- The LM after power-on (R37): two channels of a STEREO feed. -/
def Lm.reset : Lm where
  energies := Oct.fill [0, 0]
  programme := Oct.fill Integrator.unbound
  item := Oct.fill Integrator.unbound

/-- A feed of the CC after power-on or MEASURE_RESTART (R57, R58). -/
def CaptionFeed.reset : CaptionFeed where
  state := .clear
  age := 0
  carriage := false
  lastPacket := none
  shownAny := false
  shownTags := []
  gap := 0
  gapStart := none
  gapReported := false
  carriageLost := false
  deadAir := 0
  deadAirStart := none
  deadAirReported := false
  previous := none

/-- The CC after power-on (R57). -/
def Cc.reset : Cc := ⟨Oct.fill CaptionFeed.reset⟩

/-- The SU after power-on (R77). -/
def Su.reset : Su where
  anchor := none
  owner := none
  timer := 0
  limit := 100
  lists := Oct.fill []
  recent := []
  handed := none
  lapseDue := false

/-- The defaults of a limit set (R96). -/
def LimitSet.default : LimitSet where
  target := -230
  toleranceAbove := 10
  toleranceBelow := 20
  ceiling := none
  minBlocks := 50
  speechThreshold := -500
  maxGap := 100
  minCoverage := 950
  deadAir := some 100

/-- The SG after power-on (R100). -/
def Sg.reset : Sg where
  table := []
  limits := Oct.fill LimitSet.default
  closeSeq := 0
  inbox := Oct.fill []
  noticeLm := Oct.fill none
  noticeCc := Oct.fill none

/-- The policy defaults (section 6.1 and R104). -/
def defaultPolicy : List PolicyEntry :=
  [⟨.fault, 50, 50, true⟩, ⟨.warn, 50, 50, true⟩, ⟨.fault, 50, 50, true⟩, ⟨.fault, 50, 50, true⟩,
   ⟨.fault, 50, 50, true⟩, ⟨.fault, 50, 50, true⟩, ⟨.fault, 50, 50, true⟩, ⟨.fault, 50, 50, false⟩,
   ⟨.warn, 50, 50, false⟩, ⟨.warn, 50, 50, false⟩, ⟨.fault, 50, 50, false⟩, ⟨.fault, 50, 50, false⟩]

/-- The IU after power-on (R119). -/
def Iu.reset : Iu where
  log := []
  policy := defaultPolicy
  nextSerial := 1
  discardedOpen := 0
  cursors := Tri.fill 1
  reports := []

/-- The RU after power-on (R135). -/
def Ru.reset : Ru := ⟨[], 1, 0, 0⟩

/-- An empty proxy encoder (R138, R152). -/
def Encoder.fresh : Encoder := ⟨0, []⟩

/-- An empty caption event buffer (R141, R152). -/
def CaptionBuffer.fresh : CaptionBuffer := ⟨[], 0, false⟩

/-- The RC after power-on (R152). -/
def Rc.reset : Rc where
  encoders := Oct.fill Encoder.fresh
  captions := Oct.fill CaptionBuffer.fresh
  spans := []
  writePos := 0
  writes := []
  stall := false
  discarded := 0

/-- The AC after power-on (R177); `epoch` numbers the lost contents of the memory (log entry 11). -/
def Ac.reset (epoch : Nat) : Ac where
  state := .unmapped
  bank := []
  groups := Quad.fill ⟨.absent, 0, 0, false⟩
  test := none
  spares := Quad.fill (List.replicate 16 ⟨none, false⟩)
  capture := none
  damaged := []
  scrub := none
  access := none
  exportRequest := none
  scrubRequest := none
  testRequest := false
  dram := []
  epoch := epoch

/-- The XU after power-on (R189). -/
def Xu.reset : Xu where
  jobs := []
  counter := 1
  buffer := []
  xd := 0
  unsent := []
  stallTimer := 0
  endings := Tri.fill none

/-- No class. -/
def Classes.none : Classes := ⟨false, false, false, false, false, false, false⟩

/-- A link after power-on (R201), with the role its straps gave. -/
def LinkState.reset (role : Role) : LinkState where
  role := role
  slot := .empty
  flags := Classes.none
  enables := Classes.none
  master := false
  dataOut := []

/-- The LI after power-on (R201). -/
def Li.reset (roles : Tri Role) : Li where
  links := roles.map LinkState.reset
  replies := []
  nextRequest := 0
  resetHeld := false

/-- The part after power-on or release of the RESET pin with the given roles, waiting commands and memory epoch. -/
def State.afterReset (pending : List Instr) (epoch : Nat) (roles : Tri Role) : State where
  pending := pending
  fiu := Fiu.reset
  lm := Lm.reset
  cc := Cc.reset
  su := Su.reset
  sg := Sg.reset
  iu := Iu.reset
  ru := Ru.reset
  rc := Rc.reset
  ac := Ac.reset epoch
  xu := Xu.reset
  li := Li.reset roles

/-- The part right after reset. The straps are not the part's: the roles are those of the usual installation, L0 scheduler, L1 auditor
and L2 observer (00_scope.md, "The part in its rack"; DESIGN CHOICE, unsafe, log entry 8). -/
def State.reset : State := State.afterReset [] 0 ⟨.scheduler, .auditor, .observer⟩

end Sys2Proof.Machine
end

