-- ==== Sys2Proof/Machine/Arith.lean ====
section
/-!
DEFINITION. The arithmetic of the audio path: weighting filter (R16), energies (R18 to R20), L-values (R21), absolute gate and bins
(R22, R23), the two gates of the integrated level (R31 to R33), proxy samples (R138, R139). Integers with stated rounding throughout;
division of integers is rounded toward minus infinity.
-/

namespace Sys2Proof.Machine

/-- Slots used by a layout (section 1.2). -/
def slotsOf : Layout → Nat
  | .mono => 1
  | .stereo => 2
  | .surround => 6

/-- The samples a layout uses, in slot order, as signed integers (section 1.2). -/
def usedSamples (lay : Layout) (x : Samples) : List Int :=
  match lay with
  | .mono => [x.s1.toInt]
  | .stereo => [x.s1.toInt, x.s2.toInt]
  | .surround => [x.s1.toInt, x.s2.toInt, x.s3.toInt, x.s4.toInt, x.s5.toInt, x.s6.toInt]

/-- Coefficients of a filter stage in units of 2^-29 (section 2.1). -/
structure Coefficients where
  b0 : Int
  b1 : Int
  b2 : Int
  a1 : Int
  a2 : Int
  deriving DecidableEq, Repr

/-- Stage 1, the presence shelf (section 2.1). -/
def stage1Coefficients : Coefficients := ⟨776920929, -1320977322, 574673604, -877801121, 371537219⟩

/-- Stage 2, the low-cut (section 2.1). -/
def stage2Coefficients : Coefficients := ⟨533722701, -1067445402, 533722701, -1067436275, 530583617⟩

/-- Saturation of R16, step 3. -/
def saturate (q : Int) : Int :=
  if 33554431 < q then 33554431 else if q < -33554431 then -33554431 else q

/-- One output of a stage: exact sum, rounding, saturation (R16). -/
def stageOutput (k : Coefficients) (z : Stage) (x : Int) : Int :=
  saturate ((k.b0 * x + k.b1 * z.x1 + k.b2 * z.x2 - k.a1 * z.y1 - k.a2 * z.y2 + 2 ^ 28) / 2 ^ 29)

/-- A stage after a sample (R16): previous input and output move on. -/
def stageAfter (z : Stage) (x y : Int) : Stage := ⟨x, z.x1, y, z.y1⟩

/-- The weighted sample and the filter state after a sample of one channel (R16). -/
def weight (z : ChannelFilter) (x : Int) : Int × ChannelFilter :=
  let y1 := stageOutput stage1Coefficients z.stage1 x
  let y2 := stageOutput stage2Coefficients z.stage2 y1
  (y2, ⟨stageAfter z.stage1 x y1, stageAfter z.stage2 y1 y2⟩)

/-- The energy term of a weighted sample (R18). -/
def energyTerm (w : Int) : Nat := w.natAbs ^ 2 / 16

/-- Filter states and channel accumulators after one period's samples, channel by channel (R16 to R18). -/
def weightChannels : List ChannelFilter → List Nat → List Int → List ChannelFilter × List Nat
  | z :: zs, e :: es, x :: xs =>
    let r := weight z x
    let rest := weightChannels zs es xs
    (r.2 :: rest.1, (e + energyTerm r.1) :: rest.2)
  | zs, es, _ => (zs, es)

/-- The tick energy T of a locked tick from its channel accumulators (R19). -/
def tickEnergyOf (lay : Layout) (es : List Nat) : Nat :=
  let e := fun i => es.getD i 0
  match lay with
  | .mono => e 0
  | .stereo => e 0 + e 1
  | .surround => e 0 + e 1 + e 2 + 45 * e 4 / 32 + 45 * e 5 / 32

/-- The normalised short-term energy S' (R20). -/
def normalisedShortTerm (e : Nat) : Nat := 2 * e / 15

/-- Whether `E` is at least Q x 10^((k - 1/2)/100) (R21), by comparing 200th powers: exact integers on both sides. -/
def lvAtLeast (E : Nat) (k : Int) : Bool :=
  let e := 2 * k - 1
  if 0 ≤ e then decide (Config.energyReference ^ 200 * 10 ^ e.toNat ≤ E ^ 200)
  else decide (Config.energyReference ^ 200 ≤ E ^ 200 * 10 ^ (-e).toNat)

/-- Binary search: with `test` true at `lo` and false at `hi`, the place where it changes. -/
def searchLast (test : Nat → Bool) : Nat → Nat → Nat → Nat
  | 0, lo, _ => lo
  | fuel + 1, lo, hi =>
    if hi ≤ lo + 1 then lo
    else if test ((lo + hi) / 2) then searchLast test fuel ((lo + hi) / 2) hi
    else searchLast test fuel lo ((lo + hi) / 2)

/-- Lv(E), from -999 to +99 (R21). -/
def lv (E : Nat) : Int :=
  (searchLast (fun n => lvAtLeast E ((n : Int) - 999)) 11 0 1099 : Int) - 999

/-- Whether a block energy is active (R22). -/
def activeBlock (b : Nat) : Bool := decide (Config.absoluteGate ≤ b)

/-- The histogram bin of an active block with L-value `v` (R23). -/
def binOf (v : Int) : Nat := ((v + 700) / 5).toNat

/-- Blocks counted in bins at or above `low` (R31, R33). -/
def binCounts (low : Nat) (bins : List (Nat × Bin)) : Nat :=
  (bins.map (fun e => if low ≤ e.1 then e.2.count else 0)).sum

/-- Energy summed in bins at or above `low` (R31, R33). -/
def binSums (low : Nat) (bins : List (Nat × Bin)) : Nat :=
  (bins.map (fun e => if low ≤ e.1 then e.2.sum else 0)).sum

/-- The relative bin (R32). -/
def relativeBin (bins : List (Nat × Bin)) : Nat :=
  ((max (lv (binSums 0 bins / binCounts 0 bins) - 100) (-700) + 700) / 5).toNat

/-- Passing count and integrated level of a histogram, or none when it is empty (R31 to R33). -/
def integratedLevel (bins : List (Nat × Bin)) : Option (Nat × Int) :=
  if binCounts 0 bins = 0 then none
  else
    let r := relativeBin bins
    some (binCounts r bins, lv (binSums r bins / binCounts r bins))

/-- The source sample of the proxy encoder (R138). -/
def sourceSample (lay : Layout) (x : Samples) : Int :=
  match lay with
  | .mono => x.s1.toInt
  | .stereo => (x.s1.toInt + x.s2.toInt) / 2
  | .surround => (x.s1.toInt + x.s2.toInt) / 2

/-- The decimated sample of a group with sum `s` (R138). -/
def decimate (s : Int) : Int := s / 6

/-- The companded byte of a decimated sample (R139). -/
def compand (x : Int) : Byte :=
  let sign := if x < 0 then 1 else 0
  let v := min x.natAbs 8388607 / 4096
  if v < 16 then BitVec.ofNat 8 (128 * sign + v)
  else
    let seg := Nat.log2 v - 3
    BitVec.ofNat 8 (128 * sign + 16 * seg + (v / 2 ^ (seg - 1) - 16))

end Sys2Proof.Machine
end

