-- ==== Sys2Proof/Machine/Ecc.lean ====
section
/-!
DEFINITION. The code on each archive word and the spare lane (chapter 9, sections 9.5 and 9.6): positions, check bits (R166), syndrome and
outcome of a read (R167), substitution of a lane (R168). Lane k of a word is bit k of its 73 bits.
-/

namespace Sys2Proof.Machine

/-- Positions of data bits 0 to 63: 3 to 71 without the powers of two (section 9.5, "Lane order"). -/
def dataPositions : List Nat :=
  (List.range 72).filter (fun p => !([0, 1, 2, 4, 8, 16, 32, 64].contains p))

/-- Positions of lanes 0 to 70: the data bits, then check bits c0 to c6. -/
def lanePositions : List Nat := dataPositions ++ [1, 2, 4, 8, 16, 32, 64]

/-- The exclusive-or of the positions whose bit of `d` is one; the first position belongs to bit 0. -/
def xorPositions : List Nat → Nat → Nat
  | [], _ => 0
  | p :: ps, d => (if d % 2 = 1 then p else 0) ^^^ xorPositions ps (d / 2)

/-- The exclusive-or of the lowest `n` bits of `d`. -/
def parity : Nat → Nat → Nat
  | 0, _ => 0
  | n + 1, d => (d + parity n (d / 2)) % 2

/-- The 71 codeword bits below c7: data on lanes 0 to 63, c0 to c6 on 64 to 70 (R166). -/
def codewordLow (d : BitVec 64) : Nat := d.toNat + 2 ^ 64 * xorPositions dataPositions d.toNat

/-- The 72-bit codeword of a data word (R166): an even number of ones. -/
def codeword (d : BitVec 64) : Nat := codewordLow d + 2 ^ 71 * parity 71 (codewordLow d)

/-- The 73 lanes driven for a data word: lane 72 copies the substituted lane, or is 0 (R166, R168). -/
def lanesOf (spare : Option Nat) (d : BitVec 64) : BitVec 73 :=
  let w := codeword d
  match spare with
  | none => BitVec.ofNat 73 w
  | some k => BitVec.ofNat 73 (w + 2 ^ 72 * (w / 2 ^ k % 2))

/-- The 72 codeword bits taken from the lanes, the substituted lane's bit from lane 72 (R167, R168). -/
def codewordRead (spare : Option Nat) (lanes : BitVec 73) : Nat :=
  let w := lanes.toNat % 2 ^ 72
  match spare with
  | none => w
  | some k => w - 2 ^ k * (w / 2 ^ k % 2) + 2 ^ k * (lanes.toNat / 2 ^ 72)

/-- Outcome of a word's read (R167). -/
inductive WordOutcome where
  | clean
  | corrected
  | uncorrectable
  deriving DecidableEq, Repr

/-- A decoded word: its syndrome byte, its outcome, the data delivered (R167). -/
structure WordRead where
  syndrome : BitVec 8
  outcome : WordOutcome
  data : BitVec 64
  deriving DecidableEq, Repr

/-- The data as read from a codeword. -/
def dataOf (w : Nat) : BitVec 64 := BitVec.ofNat 64 w

/-- The data with the bit at position `s` inverted when it is a data bit (R167). -/
def invertAt (s : Nat) (d : BitVec 64) : BitVec 64 :=
  match dataPositions.findIdx? (fun p => p == s) with
  | some i => d ^^^ BitVec.ofNat 64 (2 ^ i)
  | none => d

/-- The read of a codeword (R167). -/
def readCodeword (w : Nat) : WordRead :=
  let s := xorPositions lanePositions w
  let p := parity 72 w
  let syn := BitVec.ofNat 8 (128 * p + s)
  if p = 0 then
    if s = 0 then ⟨syn, .clean, dataOf w⟩ else ⟨syn, .uncorrectable, dataOf w⟩
  else if s ≤ 71 then ⟨syn, .corrected, invertAt s (dataOf w)⟩
  else ⟨syn, .uncorrectable, dataOf w⟩

/-- The read of a word from its lanes under a Spare Lane Map entry's lane (R167, R168). -/
def readLanes (spare : Option Nat) (lanes : BitVec 73) : WordRead := readCodeword (codewordRead spare lanes)

end Sys2Proof.Machine
end

