-- ==== Sys2Proof/Machine/Flags.lean ====
section
/-!
DEFINITION. Attention flags, enables and the ALERT line (R199, R200), and the verdict flags of a record as a whole (R94).
-/

namespace Sys2Proof.Machine

/-- Attention classes in the order of R199. -/
inductive AttentionClass where
  | incident
  | warning
  | segment
  | exports
  | schedule
  | archive
  | link
  deriving DecidableEq, Repr

/-- The set with one class put in (`true`) or taken out. -/
def Classes.put (c : Classes) (k : AttentionClass) (v : Bool) : Classes :=
  match k with
  | .incident => { c with incident := v }
  | .warning => { c with warning := v }
  | .segment => { c with segment := v }
  | .exports => { c with exports := v }
  | .schedule => { c with schedule := v }
  | .archive => { c with archive := v }
  | .link => { c with link := v }

/-- Every class, or no class. -/
def Classes.all (v : Bool) : Classes := ⟨v, v, v, v, v, v, v⟩

/-- The set that a byte names: bit i for the class in row i (R197). Bit 7 names none. -/
def classesOf (b : Byte) : Classes where
  incident := b.getLsbD 0
  warning := b.getLsbD 1
  segment := b.getLsbD 2
  exports := b.getLsbD 3
  schedule := b.getLsbD 4
  archive := b.getLsbD 5
  link := b.getLsbD 6

/-- `c` without the classes of `d` (R199). -/
def Classes.without (c d : Classes) : Classes where
  incident := c.incident && !d.incident
  warning := c.warning && !d.warning
  segment := c.segment && !d.segment
  exports := c.exports && !d.exports
  schedule := c.schedule && !d.schedule
  archive := c.archive && !d.archive
  link := c.link && !d.link

/-- Whether a class is in both sets. -/
def Classes.meet (c d : Classes) : Bool :=
  (c.incident && d.incident) || (c.warning && d.warning) || (c.segment && d.segment) || (c.exports && d.exports)
    || (c.schedule && d.schedule) || (c.archive && d.archive) || (c.link && d.link)

/-- Whether a link's flags and enables make its ALERT line active (R200): it follows them at every moment. -/
def alertActive (x : LinkState) : Bool :=
  (x.master && x.flags.meet x.enables) || x.flags.archive || x.flags.link

/-- Whether a link's ALERT line is active: it stays released while the RESET pin is held (R201). -/
def Li.alertLine (li : Li) (l : Link) : Bool := !li.resetHeld && alertActive (li.links.get l)

/-- A link with an attention flag set (R199). -/
def LinkState.raise (x : LinkState) (k : AttentionClass) : LinkState := { x with flags := x.flags.put k true }

/-- The Link Interface with a flag set on one link. -/
def Li.raiseOn (li : Li) (l : Link) (k : AttentionClass) : Li := { li with links := li.links.update l (·.raise k) }

/-- The Link Interface with a flag set on all three links. -/
def Li.raiseAll (li : Li) (k : AttentionClass) : Li := { li with links := li.links.map (·.raise k) }

/-- Whether any of the eight verdict flags is set (R94). -/
def VerdictFlags.any (v : VerdictFlags) : Bool :=
  v.loudnessHigh || v.loudnessLow || v.shortTermHigh || v.tooShort || v.silent || v.coverageLow || v.lateStart
    || v.scheduleUnconfirmed

/-- The target of ATTENTION_SET by its place: a class, MASTER (7) or ALL (8); action set (0) or clear (1) (R197, R200, log entry 19). -/
def attentionTarget (target : Nat) (v : Bool) (x : LinkState) : Option LinkState :=
  match target with
  | 0 => some { x with enables := x.enables.put .incident v }
  | 1 => some { x with enables := x.enables.put .warning v }
  | 2 => some { x with enables := x.enables.put .segment v }
  | 3 => some { x with enables := x.enables.put .exports v }
  | 4 => some { x with enables := x.enables.put .schedule v }
  | 5 => some { x with enables := x.enables.put .archive v }
  | 6 => some { x with enables := x.enables.put .link v }
  | 7 => some { x with master := v }
  | 8 => some { x with enables := Classes.all v, master := v }
  | _ => none

/-- Action set or clear of ATTENTION_SET, by its place in "set or clear" (log entry 19). -/
def attentionAction (b : Byte) : Option Bool :=
  match b.toNat with
  | 0 => some true
  | 1 => some false
  | _ => none

end Sys2Proof.Machine
end

