-- ==== Sys2Proof/Machine/Operands.lean ====
section
/-!
DEFINITION. What the bytes of a request's fields mean (R197): names by their place in a list, numbers in their range, choices, requirements,
masks, and the values that rules bring into range.
-/

namespace Sys2Proof.Machine

/-- A feed number, or none outside 0 to 7. -/
def feedOf (b : Byte) : Option Feed :=
  if h : b.toNat < 8 then some ⟨b.toNat, h⟩ else none

/-- A physical group number, or none outside 0 to 3. -/
def groupOf (b : Byte) : Option Group :=
  if h : b.toNat < 4 then some ⟨b.toNat, h⟩ else none

/-- A limit set index, or none outside 0 to 7. -/
def limitIndexOf (b : Byte) : Option (Fin 8) :=
  if h : b.toNat < 8 then some ⟨b.toNat, h⟩ else none

/-- The feeds of a mask, in feed order (R197: bit f set when feed f is in the mask). -/
def maskFeeds (b : Byte) : List Feed := allFeeds.filter (fun f => b.toNat / 2 ^ f.val % 2 = 1)

/-- A layout (section 1.2), or none. -/
def layoutOf (b : Byte) : Option Layout :=
  match b.toNat with
  | 0 => some .mono
  | 1 => some .stereo
  | 2 => some .surround
  | _ => none

/-- An announcement kind (section 4.4), or none. -/
def announceKindOf (b : Byte) : Option AnnounceKind :=
  match b.toNat with
  | 0 => some .programme
  | 1 => some .adBreak
  | 2 => some .ending
  | 3 => some .item
  | 4 => some .itemEnd
  | _ => none

/-- An incident kind (section 6.1), or none. -/
def incidentKindOf (b : Byte) : Option IncidentKind :=
  match b.toNat with
  | 0 => some .loudnessHigh
  | 1 => some .loudnessLow
  | 2 => some .shortTermHigh
  | 3 => some .subtitleGap
  | 4 => some .coverageLow
  | 5 => some .carriageLost
  | 6 => some .deadAir
  | 7 => some .scheduleLost
  | 8 => some .timeStep
  | 9 => some .lateBoundary
  | 10 => some .evidenceDamaged
  | 11 => some .recordStall
  | _ => none

/-- A policy mode (R104), or none. -/
def modeOf (b : Byte) : Option Mode :=
  match b.toNat with
  | 0 => some .fault
  | 1 => some .warn
  | 2 => some .muted
  | _ => none

/-- A choice of yes or no (R197); a byte other than 0 and 1 is open (log entry 14). -/
def choiceOf (b : Byte) : Option Bool :=
  if b = 0 then some false else if b = 1 then some true else Config.oddChoice b

/-- Whether a letter code is a lower-case letter a to z (PRESUMED: the codes of ASCII, log entry 21). -/
def lowerCase (b : Byte) : Bool := decide (97 ≤ b.toNat) && decide (b.toNat ≤ 122)

/-- Whether a tag is three lower-case letters (R6, R69). -/
def tagValid (t : Tag) : Bool := lowerCase t.a && lowerCase t.b && lowerCase t.c

/-- A subtitle requirement (R69, R197), or none when it is refused; the forms R197 does not name are open (log entry 15). -/
def requirementOf (r : RequirementField) : Option Requirement :=
  if r.form = 0 ∧ r.tag = ⟨0, 0, 0⟩ then some .none
  else if r.form = 1 ∧ r.tag = ⟨0, 0, 0⟩ then some .any
  else if r.form = 2 then (if tagValid r.tag then some (.tag r.tag) else none)
  else Config.oddRequirement r

/-- `v` brought into the range from `lo` to `hi`. -/
def clampInt (lo hi v : Int) : Int := max lo (min hi v)

/-- The limit set that LIMITS_WRITE stores: every field brought into its range (R96, R97). -/
def limitsInForce (a : LimitsWriteArgs) : LimitSet where
  target := clampInt (-400) (-100) a.target.toInt
  toleranceAbove := clampInt 0 50 a.toleranceAbove.toInt
  toleranceBelow := clampInt 0 50 a.toleranceBelow.toInt
  ceiling := a.ceiling.map (fun v => clampInt (-400) 0 v.toInt)
  minBlocks := (clampInt 0 3000 a.minBlocks.toInt).toNat
  speechThreshold := clampInt (-700) (-200) a.speechThreshold.toInt
  maxGap := (clampInt 10 600 a.maxGap.toInt).toNat
  minCoverage := (clampInt 0 1000 a.minCoverage.toInt).toNat
  deadAir := a.deadAir.map (fun v => (clampInt 20 600 v.toInt).toNat)

/-- Whether every field of a LIMITS_WRITE was in its range already (R97). -/
def limitsUnchanged (a : LimitsWriteArgs) : Bool :=
  let x := limitsInForce a
  decide (x.target = a.target.toInt) && decide (x.toleranceAbove = a.toleranceAbove.toInt)
    && decide (x.toleranceBelow = a.toleranceBelow.toInt) && decide (x.ceiling = a.ceiling.map BitVec.toInt)
    && decide ((x.minBlocks : Int) = a.minBlocks.toInt) && decide (x.speechThreshold = a.speechThreshold.toInt)
    && decide ((x.maxGap : Int) = a.maxGap.toInt) && decide ((x.minCoverage : Int) = a.minCoverage.toInt)
    && decide (x.deadAir.map (fun (v : Nat) => (v : Int)) = a.deadAir.map BitVec.toInt)

/-- The role that a link's straps give (R195). -/
def roleOf (x : Straps) : Role :=
  match x.second, x.first with
  | false, false => .observer
  | false, true => .scheduler
  | true, false => .auditor
  | true, true => .schedulerAuditor

/-- Rows of the request table (R195). -/
inductive Row where
  | any
  | scheduler
  | auditor
  deriving DecidableEq, Repr

/-- The row of the request table that a kind stands in, or none when it is not in the table (R195). -/
def requestRow (kind : Nat) : Option Row :=
  if kind ≤ 12 then some .any
  else if 16 ≤ kind ∧ kind ≤ 20 then some .scheduler
  else if 32 ≤ kind ∧ kind ≤ 47 then some .auditor
  else none

/-- Whether a role reaches a row (R195). -/
def roleReaches : Role → Row → Bool
  | _, .any => true
  | .scheduler, .scheduler => true
  | .auditor, .auditor => true
  | .schedulerAuditor, _ => true
  | _, _ => false

/-- Whether a role reaches the request of a kind. -/
def reachesKind (role : Role) (kind : Nat) : Bool :=
  match requestRow kind with
  | some row => roleReaches role row
  | none => false

end Sys2Proof.Machine
end

