-- ==== Sys2Proof/Machine/Table.lean ====
section
/-!
DEFINITION. Numbered tables: lists of (number, content) in rising order of number. A number that is not listed is free.
The Segment Table, the Hold Table, the bins of an integrator and the archive memory are such tables.
-/

namespace Sys2Proof.Machine

variable {α : Type}

/-- What the table holds under a number, or none when the number is free. -/
def tableGet : List (Nat × α) → Nat → Option α
  | [], _ => none
  | (k, v) :: rest, n => if k = n then some v else tableGet rest n

/-- The table with `v` under number `n`, in its place. -/
def tablePut : List (Nat × α) → Nat → α → List (Nat × α)
  | [], n, v => [(n, v)]
  | (k, w) :: rest, n, v =>
    if n < k then (n, v) :: (k, w) :: rest
    else if n = k then (n, v) :: rest
    else (k, w) :: tablePut rest n v

/-- The table with number `n` freed. -/
def tableErase (t : List (Nat × α)) (n : Nat) : List (Nat × α) :=
  t.filter (fun e => decide (e.1 ≠ n))

/-- The table with `g` applied to the content of number `n`, if it is listed. -/
def tableUpdate (t : List (Nat × α)) (n : Nat) (g : α → α) : List (Nat × α) :=
  t.map (fun e => if e.1 = n then (e.1, g e.2) else e)

/-- The lowest free number below `bound`, or none when every number is listed. -/
def tableFree (t : List (Nat × α)) (bound : Nat) : Option Nat :=
  (List.range bound).find? (fun n => (tableGet t n).isNone)

/-- The canonical form: numbers strictly rising. -/
abbrev tableSorted (t : List (Nat × α)) : Prop :=
  t.Pairwise (fun a b => a.1 < b.1)

/-- The canonical form with every number below `bound`. -/
abbrev tableWf (bound : Nat) (t : List (Nat × α)) : Prop :=
  tableSorted t ∧ ∀ e ∈ t, e.1 < bound

end Sys2Proof.Machine
end

