-- ==== Sys2Proof/Machine/Wire.lean ====
section
/-!
DEFINITION. Bytes: the sizes and forms of fields (R197), the frame CRC (R192), reply frames (R194), and the places of names in the lists
their rules give. A value of more than one byte is sent most significant byte first.
-/

namespace Sys2Proof.Machine

/-- `n` in `w` bytes, most significant first; what lies above them is lost. -/
def beBytes : Nat → Nat → List Byte
  | 0, _ => []
  | w + 1, n => BitVec.ofNat 8 (n / 256 ^ w) :: beBytes w n

/-- The number that bytes give, most significant first. -/
def beValue (bs : List Byte) : Nat := bs.foldl (fun n b => 256 * n + b.toNat) 0

/-- `i` in `w` bytes, two's complement. -/
def beSigned (w : Nat) (i : Int) : List Byte := beBytes w (i % (256 ^ w : Nat)).toNat

/-- The CRC remainder after one shift (R192). -/
def crcShift (r : BitVec 16) : BitVec 16 :=
  if r.msb then (r <<< 1) ^^^ 0x1021#16 else r <<< 1

/-- The CRC remainder after one byte (R192). -/
def crcByte (r : BitVec 16) (b : Byte) : BitVec 16 :=
  Nat.repeat crcShift 8 (r ^^^ (b.setWidth 16 <<< 8))

/-- The CRC of a frame's bytes (R192). -/
def crc16 (bs : List Byte) : BitVec 16 := bs.foldl crcByte 0xFFFF#16

/-- A frame's bytes followed by their CRC, most significant byte first (R190, R194). -/
def withCrc (bs : List Byte) : List Byte := bs ++ beBytes 2 (crc16 bs).toNat

/-! ## Places of names in their lists (R197) -/

/-- R3, section 1.2. -/
def layoutPlace : Layout → Nat
  | .mono => 0
  | .stereo => 1
  | .surround => 2

/-- Section 4.4. -/
def AnnounceKind.place : AnnounceKind → Nat
  | .programme => 0
  | .adBreak => 1
  | .ending => 2
  | .item => 3
  | .itemEnd => 4

/-- R79. -/
def SegmentKind.place : SegmentKind → Nat
  | .programme => 0
  | .adBreak => 1
  | .item => 2
  | .unscheduled => 3

/-- R106: a segment kind, or for LATE_BOUNDARY the announcement kind. -/
def NamedKind.place : NamedKind → Nat
  | .segment k => k.place
  | .announcement k => k.place

/-- R79. -/
def SegmentState.place : SegmentState → Nat
  | .opened => 0
  | .suspended => 1
  | .closed => 2

/-- R79. -/
def VerdictState.place : VerdictState → Nat
  | .pending => 0
  | .done => 1

/-- Section 6.1. -/
def IncidentKind.place : IncidentKind → Nat
  | .loudnessHigh => 0
  | .loudnessLow => 1
  | .shortTermHigh => 2
  | .subtitleGap => 3
  | .coverageLow => 4
  | .carriageLost => 5
  | .deadAir => 6
  | .scheduleLost => 7
  | .timeStep => 8
  | .lateBoundary => 9
  | .evidenceDamaged => 10
  | .recordStall => 11

/-- R104. -/
def Mode.place : Mode → Nat
  | .fault => 0
  | .warn => 1
  | .muted => 2

/-- R106. -/
def HoldOutcome.place : HoldOutcome → Nat
  | .notRequested => 0
  | .placed => 1
  | .placedClamped => 2
  | .wrongState => 3
  | .notFound => 4
  | .quota => 5
  | .full => 6

/-- R158, in the order of the list of the controller's state in chapter 9. -/
def ArchiveState.place : ArchiveState → Nat
  | .unmapped => 0
  | .mapped => 1
  | .testing => 2
  | .tested => 3
  | .recording => 4

/-- R157. -/
def GroupState.place : GroupState → Nat
  | .absent => 0
  | .untested => 1
  | .healthy => 2
  | .faulted => 3

/-- R169. -/
def CaptureKind.place : CaptureKind → Nat
  | .corrected => 0
  | .uncorrectable => 1
  | .timeout => 2

/-- R169. -/
def Requester.place : Requester → Nat
  | .recordWrite => 0
  | .exportRead => 1
  | .scrubRead => 2
  | .test => 3

/-- R178. -/
def Phase.place : Phase → Nat
  | .queued => 0
  | .lookup => 1
  | .reading => 2
  | .sending => 3
  | .ending => 4

/-- R187. -/
def EndStatus.place : EndStatus → Nat
  | .done => 0
  | .aborted => 1
  | .stalled => 2

/-- R195. -/
def Role.place : Role → Nat
  | .observer => 0
  | .scheduler => 1
  | .auditor => 2
  | .schedulerAuditor => 3

/-- The byte of a status code (R194). -/
def Status.code : Status → Nat
  | .ok => 0
  | .clamped => 1
  | .replaced => 2
  | .pending => 3
  | .frameError => 4
  | .unknown => 5
  | .role => 6
  | .notOwner => 7
  | .owned => 8
  | .noTime => 9
  | .tooFar => 10
  | .tooLate => 11
  | .full => 12
  | .quota => 13
  | .notFound => 14
  | .badArgument => 15
  | .wrongState => 16

/-! ## Fields and reply frames -/

/-- A set of classes as a byte: bit i for the class in row i of R199. -/
def Classes.toNat (c : Classes) : Nat :=
  c.incident.toNat + 2 * c.warning.toNat + 4 * c.segment.toNat + 8 * c.exports.toNat + 16 * c.schedule.toNat
    + 32 * c.archive.toNat + 64 * c.link.toNat

/-- A feed mask as a byte: bit f for feed f (R197). -/
def maskValue (fs : List Feed) : Nat := (allFeeds.map (fun f => if f ∈ fs then 2 ^ f.val else 0)).sum

/-- The bytes of a tag. -/
def tagBytes (t : Tag) : List Byte := [t.a, t.b, t.c]

/-- The bytes of a field (R197). -/
def Wire.bytes : Wire → List Byte
  | .byte n => beBytes 1 n
  | .choice b => beBytes 1 b.toNat
  | .word n => beBytes 2 n
  | .signedWord i => beSigned 2 i
  | .long n => beBytes 4 n
  | .tick n => beBytes 6 n
  | .signedTick i => beSigned 6 i
  | .openTick b => beBytes 6 b.toNat
  | .tag t => tagBytes t
  | .requirement .none => [0, 0, 0, 0]
  | .requirement .any => [1, 0, 0, 0]
  | .requirement (.tag t) => 2 :: tagBytes t

/-- A field that may be absent, none or undefined: one byte says whether it follows (R197). -/
def optionalField (f : α → List Wire) : Option α → List Wire
  | none => [.byte 0]
  | some a => .byte 1 :: f a

/-- A list in a reply: one byte gives the number of its items (R197). -/
def listed (f : α → List Wire) (as : List α) : List Wire := .byte as.length :: (as.map f).flatten

/-- The payload bytes of a reply. -/
def Reply.payload (r : Reply) : List Byte := (r.fields.map Wire.bytes).flatten

/-- The reply frame of R194. -/
def replyFrame (kind : Byte) (r : Reply) : List Byte :=
  withCrc (beBytes 1 r.status.code ++ [kind] ++ beBytes 2 r.payload.length ++ r.payload)

/-- What FETCH sends for a slot (R194). -/
def slotFrame : ReplySlot → List Byte
  | .empty => replyFrame 0 ⟨.pending, []⟩
  | .waiting kind _ => replyFrame kind ⟨.pending, []⟩
  | .ready kind r => replyFrame kind r

/-! ## Groups of fields that several replies share -/

/-- A handle: slot index and open tick. -/
def handleFields (h : Handle) : List Wire := [.byte h.index, .tick h.openTick]

/-- The nine fields of a limit set (R96). -/
def limitFields (x : LimitSet) : List Wire :=
  [.signedWord x.target, .signedWord x.toleranceAbove, .signedWord x.toleranceBelow]
    ++ optionalField (fun v => [.signedWord v]) x.ceiling
    ++ [.signedWord x.minBlocks, .signedWord x.speechThreshold, .signedWord x.maxGap, .signedWord x.minCoverage]
    ++ optionalField (fun (v : Nat) => [.signedWord v]) x.deadAir

/-- A policy entry (R104). -/
def policyFields (x : PolicyEntry) : List Wire :=
  [.byte x.mode.place, .signedWord x.preRoll, .signedWord x.postRoll, .choice x.autoHold]

/-- The owner of a hold (R121): LINK, INCIDENT or EXPORT, then its link, serial or job number. -/
def ownerFields : Owner → List Wire
  | .link l => [.byte 0, .byte l.val]
  | .incident n => [.byte 1, .long n]
  | .job n => [.byte 2, .long n]

/-- A layout and an enable (R3). -/
def settingFields (x : FeedSetting) : List Wire := [.byte (layoutPlace x.layout), .choice x.enabled]

/-- The eight verdict flags in the order of R79. -/
def verdictFields (v : VerdictFlags) : List Wire :=
  [.choice v.loudnessHigh, .choice v.loudnessLow, .choice v.shortTermHigh, .choice v.tooShort, .choice v.silent,
   .choice v.coverageLow, .choice v.lateStart, .choice v.scheduleUnconfirmed]

end Sys2Proof.Machine
end

