-- ==== Sys2Proof/Machine/Ops.lean ====
section
/-!
DEFINITION. Operations that several blocks share: replacing a block's state, the tick counters, reports, attention flags, passing a request
and its reply (R193, R196), the Recorder's and the Retention Unit's questions (R133, R142), placing and releasing holds (R125 to R130),
group states (R157), and the words of the archive memory.
-/

namespace Sys2Proof.Machine

/-! ## Replacing one block's state -/

/-- `s` with another Feed Ingest Unit. -/
def State.withFiu (s : State) (x : Fiu) : State := { s with fiu := x }

/-- `s` with another Level Meter. -/
def State.withLm (s : State) (x : Lm) : State := { s with lm := x }

/-- `s` with another Caption Checker. -/
def State.withCc (s : State) (x : Cc) : State := { s with cc := x }

/-- `s` with another Schedule Unit. -/
def State.withSu (s : State) (x : Su) : State := { s with su := x }

/-- `s` with another Segment Unit. -/
def State.withSg (s : State) (x : Sg) : State := { s with sg := x }

/-- `s` with another Incident Unit. -/
def State.withIu (s : State) (x : Iu) : State := { s with iu := x }

/-- `s` with another Retention Unit. -/
def State.withRu (s : State) (x : Ru) : State := { s with ru := x }

/-- `s` with another Recorder. -/
def State.withRc (s : State) (x : Rc) : State := { s with rc := x }

/-- `s` with another Archive Controller. -/
def State.withAc (s : State) (x : Ac) : State := { s with ac := x }

/-- `s` with another Export Unit. -/
def State.withXu (s : State) (x : Xu) : State := { s with xu := x }

/-- `s` with another Link Interface. -/
def State.withLi (s : State) (x : Li) : State := { s with li := x }

/-! ## Ticks -/

/-- c, the newest closed tick, undefined until tick 0 closes (R7). -/
def State.closedTick (s : State) : Option Nat :=
  if s.fiu.openTick = 0 then none else some (s.fiu.openTick - 1)

/-- c where an event of a closed tick needs it; 0 before tick 0 closes, when no such event happens. -/
def State.raiseTickNow (s : State) : Nat := s.fiu.openTick - 1

/-- The tick record of `t` in a history, if the history holds it (R11). -/
def recordAt (h : List TickRecord) (t : Nat) : Option TickRecord := h.find? (fun r => r.tick = t)

/-- What a tick that the history does not hold reads as (R12). That it reads as not stale is the model's choice (log entry 43). -/
def absentRecord (t : Nat) : TickRecord := ⟨t, true, 0, 0, 0, false, [], false, false, none⟩

/-- A read of the history (R12). -/
def readHistory (h : List TickRecord) (t : Nat) : TickRecord := (recordAt h t).getD (absentRecord t)

/-! ## Reports and attention flags -/

/-- A report is sent to the Incident Unit (R102), which takes it by INCIDENT_REPORT. -/
def State.sendReport (s : State) (r : Report) : State :=
  s.withIu { s.iu with reports := s.iu.reports ++ [r] }

/-- Reports sent one after the other. -/
def State.sendReports (s : State) (rs : List Report) : State :=
  s.withIu { s.iu with reports := s.iu.reports ++ rs }

/-- An attention flag is set on all three links (R199). -/
def State.flagAll (s : State) (k : AttentionClass) : State := s.withLi (s.li.raiseAll k)

/-- An attention flag is set on one link (R199). -/
def State.flagOn (s : State) (l : Link) (k : AttentionClass) : State := s.withLi (s.li.raiseOn l k)

/-! ## Requests and replies -/

/-- A link's slot becomes READY with a reply the Link Interface gives itself, and nothing is driven (R193). -/
def Li.answer (li : Li) (l : Link) (kind : Byte) (r : Reply) : Li :=
  { li with links := li.links.update l (fun x => { x with slot := .ready kind r, dataOut := [] }) }

/-- A link's slot becomes WAITING on the request with the next number (R193). -/
def Li.await (li : Li) (l : Link) (kind : Byte) : Li :=
  { li with
    links := li.links.update l (fun x => { x with slot := .waiting kind li.nextRequest, dataOut := [] })
    nextRequest := li.nextRequest + 1 }

/-- A block's reply to request number `n` sets out for its link (R193). -/
def State.sendReply (s : State) (l : Link) (n : Nat) (r : Reply) : State :=
  s.withLi { s.li with replies := s.li.replies ++ [⟨l, n, r⟩] }

/-- The state after a frame arrived, `t` being what the frame brings about: while the RESET pin is held it is not received (R190). -/
def State.received (s t : State) : State := if s.li.resetHeld then s else t

/-- A good frame of a kind of the request table: role, length, then the block takes the request and its reply sets out (R196, log entry 3). -/
def passRequest (kind : Nat) (l : Link) (p : Payload α) (s : State) (body : α → State → State × Reply) : State :=
  let k := BitVec.ofNat 8 kind
  s.received
    (if reachesKind (s.li.links.get l).role kind then
      match p with
      | .wrongLength => s.withLi (s.li.answer l k ⟨.badArgument, []⟩)
      | .fits a =>
        let r := body a (s.withLi (s.li.await l k))
        r.1.sendReply l s.li.nextRequest r.2
    else s.withLi (s.li.answer l k ⟨.role, []⟩))

/-- A good frame of a request the Link Interface answers itself (R196, R199, R200). -/
def answerRequest (kind : Nat) (l : Link) (p : Payload α) (s : State) (body : α → State → State × Reply) : State :=
  let k := BitVec.ofNat 8 kind
  s.received
    (if reachesKind (s.li.links.get l).role kind then
      match p with
      | .wrongLength => s.withLi (s.li.answer l k ⟨.badArgument, []⟩)
      | .fits a =>
        let r := body a s
        r.1.withLi (r.1.li.answer l k r.2)
    else s.withLi (s.li.answer l k ⟨.role, []⟩))

/-- A refusal with no payload. -/
def refuse (st : Status) (s : State) : State × Reply := (s, ⟨st, []⟩)

/-! ## Questions to the Recorder -/

/-- The last tick of a span (R142). -/
def Span.lastTick (x : Span) : Nat := x.firstTick + x.length - 1

/-- Whether a tick lies in a span. -/
def Span.hasTick (x : Span) (t : Nat) : Bool := decide (x.firstTick ≤ t) && decide (t < x.firstTick + x.length)

/-- Whether a page lies in a span. -/
def Span.hasPage (x : Span) (p : Nat) : Bool := decide (x.firstPage ≤ p) && decide (p < x.firstPage + x.length)

/-- The stored tick of page `p`, or none when the page is free (R142). -/
def storedTick (spans : List Span) (p : Nat) : Option Nat :=
  (spans.find? (fun x => x.hasPage p)).map (fun x => x.firstTick + (p - x.firstPage))

/-- The page of tick `t`, or none when it is ABSENT (R142). -/
def pageOf (spans : List Span) (t : Nat) : Option Nat :=
  (spans.find? (fun x => x.hasTick t)).map (fun x => x.firstPage + (t - x.firstTick))

/-- The oldest present tick (R142). -/
def oldestPresent (spans : List Span) : Option Nat := spans.head?.map (·.firstTick)

/-- The newest present tick (R142). -/
def newestPresent (spans : List Span) : Option Nat := spans.getLast?.map Span.lastTick

/-- Installed pages (R156). -/
def Ac.installed (ac : Ac) : Nat := Config.groupPages * ac.bank.length

/-- The physical group of an archive page (R156). -/
def Ac.groupAt (ac : Ac) (p : Nat) : Option Group := ac.bank[p / Config.groupPages]?

/-- The state of the group that holds an archive page; ABSENT outside the installed pages. -/
def Ac.pageState (ac : Ac) (p : Nat) : GroupState :=
  match ac.groupAt p with
  | some g => (ac.groups.get g).state
  | none => .absent

/-- What the Recorder answers about a tick (R142, R150). -/
inductive Presence where
  | absent
  | unavailable (page : Nat)
  | available (page : Nat)
  deriving DecidableEq, Repr

/-- The question "page of tick t" (R142): a present tick in a FAULTED group is unavailable (R150). -/
def State.presence (s : State) (t : Nat) : Presence :=
  match pageOf s.rc.spans t with
  | none => .absent
  | some p => if s.ac.pageState p = .faulted then .unavailable p else .available p

/-! ## Questions to the Retention Unit -/

/-- Committed pages of a hold (R121). -/
def Hold.pages (h : Hold) : Nat := h.last - h.first + 1

/-- The committed sum (R123). -/
def committedSum (holds : List (Nat × Hold)) : Nat := (holds.map (fun e => e.2.pages)).sum

/-- Is tick `t` held (R133)? -/
def isHeld (holds : List (Nat × Hold)) (t : Nat) : Bool :=
  holds.any (fun e => decide (e.2.first ≤ t) && decide (t ≤ e.2.last))

/-- Does the run of ticks `a` to `b` hold a held tick (R133)? -/
def runHeld (holds : List (Nat × Hold)) (a b : Nat) : Bool :=
  holds.any (fun e => decide (e.2.first ≤ b) && decide (a ≤ e.2.last))

/-- The retention floor (R126). -/
def State.retentionFloor (s : State) : Nat := (oldestPresent s.rc.spans).getD s.fiu.openTick

/-- The horizon (R126): c + 36,000, or 35,999 before tick 0 has closed. -/
def State.retentionHorizon (s : State) : Nat := s.fiu.openTick + (Config.horizonTicks - 1)

/-- Whether the table is over quota (R124). -/
def Ru.overQuota (ru : Ru) : Bool := decide (ru.quota < committedSum ru.holds)

/-! ## Placing and releasing holds -/

/-- The Retention Unit's answer to a placement (R125). -/
inductive Placement where
  | refused (st : Status)
  | placed (index : Nat) (hold : Hold) (clamped : Bool)
  deriving DecidableEq, Repr

/-- Steps 4 to 8 of R125, with the first tick already raised. -/
def placeAbove (s : State) (o : Owner) (first last reason : Nat) (clamped : Bool) : Placement :=
  let hold : Hold := ⟨s.ru.counter, o, first, last, reason⟩
  if s.retentionHorizon < last then .refused .tooFar
  else if s.ru.quota < committedSum s.ru.holds + hold.pages then .refused .quota
  else
    match tableFree s.ru.holds Config.holdEntries with
    | none => .refused .full
    | some i => .placed i hold clamped

/-- The checks of R125, in its order. -/
def judgePlacement (s : State) (o : Owner) (first last reason : Nat) : Placement :=
  if last < first then .refused .badArgument
  else if s.ac.state ≠ .recording then .refused .wrongState
  else if last < s.retentionFloor then .refused .notFound
  else placeAbove s o (max first s.retentionFloor) last reason (decide (first < s.retentionFloor))

/-- The Hold Table after a placement: the entry is written and the counter rises (R122, R127). -/
def Ru.take (ru : Ru) : Placement → Ru
  | .refused _ => ru
  | .placed i hold _ => { ru with holds := tablePut ru.holds i hold, counter := ru.counter + 1 }

/-- The release of an entry (R129). -/
def Ru.release (ru : Ru) (i : Nat) : Ru := { ru with holds := tableErase ru.holds i }

/-- An internal release, by index and owner (R130). -/
def Ru.releaseOwned (ru : Ru) (i : Nat) (o : Owner) : Ru :=
  match tableGet ru.holds i with
  | some h => if h.owner = o then ru.release i else ru
  | none => ru

/-! ## Group states -/

/-- Mapped groups that are HEALTHY. -/
def Ac.healthyGroups (ac : Ac) : Nat := (ac.bank.filter (fun g => (ac.groups.get g).state = .healthy)).length

/-- Mapped groups that are FAULTED. -/
def Ac.faultedGroups (ac : Ac) : Nat := (ac.bank.filter (fun g => (ac.groups.get g).state = .faulted)).length

/-- The Archive Controller takes new group states, and the Retention Unit recomputes healthy page count and quota at once (R123, R157). -/
def State.regroup (s : State) (ac : Ac) : State :=
  (s.withAc ac).withRu
    { s.ru with
      healthyPages := Config.groupPages * ac.healthyGroups
      quota := Config.groupPages * ac.healthyGroups / 2 }

/-- Every mapped group UNTESTED (R159, R163). -/
def Ac.untested (ac : Ac) : Quad GroupRecord :=
  Quad.tab (fun g => if g ∈ ac.bank then { ac.groups.get g with state := .untested } else ac.groups.get g)

/-- A group faults while the archive is RECORDING, and ARCHIVE is flagged (R157, R158, R165). -/
def State.faultGroup (s : State) (g : Group) : State :=
  (s.regroup { s.ac with groups := s.ac.groups.update g (fun x => { x with state := .faulted }) }).flagAll .archive

/-! ## Archive memory -/

/-- The address of word `w` of a page within a group. -/
def wordAddress (g : Group) (page w : Nat) : Nat := (g.val * Config.groupPages + page) * Config.pageWords + w

/-- The Spare Lane Map entry of a page (R156, R168). -/
def Ac.spareOf (ac : Ac) (g : Group) (page : Nat) : SpareEntry :=
  (ac.spares.get g).getD (page / Config.rowBlockPages) ⟨none, false⟩

/-- Words stored one after the other, the last first, so that each finds its place at the front. -/
def dramWrite (d : List (Nat × BitVec 73)) (base : Nat) (ws : List (BitVec 73)) : List (Nat × BitVec 73) :=
  ws.zipIdx.foldr (fun e t => tablePut t (base + e.2) e.1) d

/-- The lanes of a word: as stored, or open when nothing has written it since power-on (log entry 11). -/
def Ac.storedLanes (ac : Ac) (address : Nat) : BitVec 73 :=
  (tableGet ac.dram address).getD (Config.unwrittenLanes ac.epoch address)

/-- The wrong lanes of a word in an access (log entry 13). -/
def wrongAt (wrong : WrongLanes) (w : Nat) : BitVec 73 :=
  match wrong.find? (fun e => e.1 = w) with
  | some e => e.2
  | none => 0

/-- A word read from the bus and decoded (R167). -/
def Ac.readWord (ac : Ac) (g : Group) (page w : Nat) (wrong : WrongLanes) : WordRead :=
  readLanes (ac.spareOf g page).lane (ac.storedLanes (wordAddress g page w) ^^^ wrongAt wrong w)

/-- The words of a page at the given offsets, decoded, with their offsets. -/
def Ac.readWords (ac : Ac) (g : Group) (page : Nat) (ws : List Nat) (wrong : WrongLanes) : List (Nat × WordRead) :=
  ws.map (fun w => (w, ac.readWord g page w wrong))

/-- The memory with the first `n` words of `data` written to a page, with their check bits and spare lane (R166, R168). -/
def Ac.writeWords (ac : Ac) (g : Group) (page n : Nat) (data : List (BitVec 64)) : Ac :=
  { ac with
    dram := dramWrite ac.dram (wordAddress g page 0) ((data.take n).map (lanesOf (ac.spareOf g page).lane)) }

/-- The memory with every corrected word of a read written back (R174). -/
def Ac.writeBack (ac : Ac) (g : Group) (page : Nat) (rs : List (Nat × WordRead)) : Ac :=
  { ac with
    dram := (rs.filter (fun r => r.2.outcome = .corrected)).foldr
      (fun r d => tablePut d (wordAddress g page r.1) (lanesOf (ac.spareOf g page).lane r.2.data)) ac.dram }

/-- The word offsets of a whole page. -/
def pageOffsets : List Nat := List.range Config.pageWords

/-- The word offsets of a set of chunks, in rising order (R175). -/
def chunkOffsets (chunks : List Feed) : List Nat :=
  (chunks.map (fun f => (List.range Config.chunkWords).map (fun i => Config.chunkWords * f.val + i))).flatten

/-- A data word from eight bytes; the first is the most significant (DESIGN CHOICE, log entry 12). -/
def wordOfBytes (bs : List Byte) : BitVec 64 := BitVec.ofNat 64 (beValue bs)

/-- The bytes of a data word (log entry 12). -/
def bytesOfWord (w : BitVec 64) : List Byte := beBytes 8 w.toNat

/-- The words of a page's bytes: word w holds bytes 8w to 8w + 7 (section 8.1); `n` words. -/
def wordsOfBytes : Nat → List Byte → List (BitVec 64)
  | 0, _ => []
  | n + 1, bs => wordOfBytes (bs.take 8) :: wordsOfBytes n (bs.drop 8)

end Sys2Proof.Machine
end

