-- ==== Sys2Proof/Machine/Recorder.lean ====
section
/-!
DEFINITION. The Recorder (chapter 8): chunks and pages (R137 to R141), the Span List (R142, R145 to R147), the page search (R144), the writer (R143, R148,
R149). Meanings: RECORD_WRITE_GRANT, RECORD_WRITE_COMPLETION.
-/

namespace Sys2Proof.Machine

/-! ## Chunks and pages -/

/-- Bytes filled up with zeros to `n`. -/
def padTo (n : Nat) (bs : List Byte) : List Byte := (bs ++ List.replicate (n - bs.length) 0).take n

/-- Bits 1 to 0 of header byte 15 (chapter 8, "Chunk header layout"). -/
def layoutCode : Layout → Nat
  | .mono => 1
  | .stereo => 2
  | .surround => 3

/-- Bits 5 to 4 of header byte 1. -/
def captionCode : CaptionState → Nat
  | .clear => 0
  | .shown _ => 1
  | .stale => 2

/-- The caption tag at close: three zero bytes for CLEAR or STALE (R137). -/
def captionTagBytes : CaptionState → List Byte
  | .shown t => tagBytes t
  | _ => [0, 0, 0]

/-- The flag byte of a chunk header. -/
def headerFlags (s : State) (f : Feed) : Nat :=
  (s.fiu.lanes.get f).locked.toNat + 2 * (!(s.fiu.broken.get f)).toNat + 4 * (s.rc.captions.get f).truncated.toNat
    + 8 * (s.cc.feeds.get f).carriage.toNat + 16 * captionCode (s.cc.feeds.get f).state

/-- The provisional momentary L-value of a chunk: -999 when the tick has no record (R137). -/
def momentaryOf : Option TickRecord → Int
  | some r => lv r.blockEnergy
  | none => -999

/-- The 32 header bytes of a chunk (R137), with the tick record of `c`, if it has one. -/
def chunkHeader (s : State) (f : Feed) (c : Nat) (r : Option TickRecord) : List Byte :=
  beBytes 1 f.val ++ beBytes 1 (headerFlags s f) ++ beBytes 6 c
    ++ beBytes 1 (s.rc.captions.get f).events ++ beBytes 1 (s.rc.captions.get f).bytes.length
    ++ beSigned 2 (momentaryOf r) ++ captionTagBytes (s.cc.feeds.get f).state
    ++ beBytes 1 (layoutCode (s.fiu.settings.get f).layout + 128 * (s.fiu.settings.get f).enabled.toNat)
    ++ List.replicate 16 0

/-- The proxy area of a chunk: all zero when the tick is broken (R139, R140). -/
def proxyArea (broken : Bool) (x : Encoder) : List Byte := if broken then List.replicate 800 0 else padTo 800 x.codes

/-- The chunk of feed `f` for tick `c` (R137): header, proxy, captions. -/
def chunkBytes (s : State) (f : Feed) (c : Nat) : List Byte :=
  chunkHeader s f c (recordAt (s.fiu.history.get f) c)
    ++ proxyArea (s.fiu.broken.get f) (s.rc.encoders.get f)
    ++ padTo Config.captionAreaBytes (s.rc.captions.get f).bytes

/-- The page for tick `c`: the eight chunks in feed order (R137). -/
def pageBytes (s : State) (c : Nat) : List Byte := (allFeeds.map (fun f => chunkBytes s f c)).flatten

/-- The page for tick `c` is assembled and its write requested, while the archive is RECORDING (R137, R143). -/
def State.requestWrite (s : State) (c : Nat) : State :=
  if s.ac.state = .recording then s.withRc { s.rc with writes := s.rc.writes ++ [⟨c, pageBytes s c, false⟩] } else s

/-- Encoders and caption buffers of a new tick (R138, R141). -/
def Rc.openTick (rc : Rc) : Rc :=
  { rc with encoders := Oct.fill Encoder.fresh, captions := Oct.fill CaptionBuffer.fresh }

/-! ## The page search -/

/-- Whether a page is writable (R144). -/
def State.writable (s : State) (p : Nat) : Bool :=
  decide (s.ac.pageState p = .healthy) &&
    (match storedTick s.rc.spans p with
     | none => true
     | some t => !(isHeld s.ru.holds t))

/-- The first of the last `n` pages, of the `size` pages from `start` round, that passes the test (R144). -/
def searchFrom (ok : Nat → Bool) (start size : Nat) : Nat → Option Nat
  | 0 => none
  | n + 1 => if ok ((start + (size - (n + 1))) % size) then some ((start + (size - (n + 1))) % size) else searchFrom ok start size n

/-- The page search (R144): each installed page once, from the write position round. -/
def State.searchPage (s : State) : Option Nat := searchFrom s.writable s.rc.writePos s.ac.installed s.ac.installed

/-! ## The Span List -/

/-- A span without the tick on its page `p` (R145): what comes before and what comes after. -/
def Span.without (x : Span) (p : Nat) : List Span :=
  (if x.firstPage < p then [⟨x.firstTick, x.firstPage, p - x.firstPage⟩] else [])
  ++ (if p + 1 < x.firstPage + x.length then
    [⟨x.firstTick + (p - x.firstPage) + 1, p + 1, x.length - (p - x.firstPage) - 1⟩] else [])

/-- The Span List after the tick on page `p` is evicted (R145). -/
def evict (spans : List Span) (p : Nat) : List Span :=
  (spans.map (fun x => if x.hasPage p then x.without p else [x])).flatten

/-- Whether tick `c` on page `p` grows a span (R146). -/
def Span.growsBy (x : Span) (c p : Nat) : Bool :=
  decide (p = x.firstPage + x.length) && decide (c = x.firstTick + x.length)

/-- Whether tick `c` on page `p` grows the newest span (R146). -/
def willGrow (spans : List Span) (c p : Nat) : Bool :=
  match spans.getLast? with
  | some x => x.growsBy c p
  | none => false

/-- The Span List after tick `c` joins it on page `p` (R146). -/
def joinTick (spans : List Span) (c p : Nat) : List Span :=
  match spans.getLast? with
  | some x =>
    if x.growsBy c p then spans.dropLast ++ [{ x with length := x.length + 1 }] else spans ++ [⟨c, p, 1⟩]
  | none => [⟨c, p, 1⟩]

/-- The span that is discarded next for room: the oldest that holds no held tick and will not grow (R147). -/
def discardable (holds : List (Nat × Hold)) (grows : Bool) (spans : List Span) : Option Span :=
  (if grows then spans.dropLast else spans).find? (fun x => !(runHeld holds x.firstTick x.lastTick))

/-- What the room check comes to: the spans kept, the spans discarded, whether there is room (R147). -/
structure Room where
  kept : List Span
  dropped : List Span
  enough : Bool
  deriving DecidableEq, Repr

/-- Whether the Span List has room for the outcome of a write (R147). -/
def hasRoom (grows : Bool) (spans : List Span) : Bool := decide (spans.length + (!grows).toNat ≤ Config.spanListSize)

/-- Spans are discarded one at a time until there is room, or none is left to discard (R147). -/
def roomFor (holds : List (Nat × Hold)) (grows : Bool) : Nat → List Span → List Span → Room
  | 0, spans, dropped => ⟨spans, dropped, hasRoom grows spans⟩
  | n + 1, spans, dropped =>
    if hasRoom grows spans then ⟨spans, dropped, true⟩
    else
      match discardable holds grows spans with
      | none => ⟨spans, dropped, false⟩
      | some x => roomFor holds grows n (spans.erase x) (x :: dropped)

/-- The Span List after a step that is undone (R147): discarded spans stay discarded, and the evicted tick's span is restored unless it, or a part of
it, was among them. -/
def undone (spans : List Span) (p : Nat) (r : Room) : List Span :=
  match spans.find? (fun x => x.hasPage p) with
  | some x => if r.dropped.any (fun y => x.hasTick y.firstTick) then r.kept else spans.filter (fun y => !(r.dropped.contains y))
  | none => r.kept

/-- Entries of the Damaged Page List whose tick is still present (R171). -/
def presentDamage (spans : List Span) (d : List (Nat × Nat)) : List (Nat × Nat) := d.filter (fun e => (pageOf spans e.2).isSome)

/-- The Recorder takes a new Span List, with `n` spans discarded, and entries of ticks no longer present leave the Damaged Page List
(R147, R171). -/
def State.withSpans (s : State) (spans : List Span) (n : Nat) : State :=
  (s.withRc { s.rc with spans := spans, discarded := min (s.rc.discarded + n) Config.count32Top }).withAc
    { s.ac with damaged := presentDamage spans s.ac.damaged }

/-! ## The writer -/

/-- The RECORD_STALL report of an unrecorded tick (R149). -/
def stallReport (c : Nat) : Report where
  kind := .recordStall
  feed := none
  handle := none
  segmentId := none
  segmentKind := none
  raiseTick := c
  subjectFirst := c
  subjectLast := c
  measured := none
  limit := none
  unconfirmed := false

/-- Tick `c` is unrecorded (R149). -/
def State.unrecorded (s : State) (c : Nat) : State :=
  if s.rc.stall then s else (s.withRc { s.rc with stall := true }).sendReport (stallReport c)

/-- The write position after page `p` is chosen (R144). -/
def pageAfter (installed p : Nat) : Nat := if p + 1 < installed then p + 1 else 0

/-- The access to archive page `p` in group `g` starts. -/
def Ac.start (ac : Ac) (k : AccessKind) (g : Group) (p : Nat) : Ac :=
  { ac with access := some ⟨k, g, p % Config.groupPages, false⟩ }

/-- The step of R143 for page `p` of group `g`: eviction and room check; the write goes ahead or is undone (R145, R147). -/
def writeStep (s : State) (w : PageWrite) (p : Nat) (g : Group) : State :=
  let ev := evict s.rc.spans p
  let r := roomFor s.ru.holds (willGrow ev w.tick p) ev.length ev []
  if r.enough then
    let y := s.withSpans r.kept r.dropped.length
    (y.withRc { y.rc with writePos := pageAfter s.ac.installed p }).withAc (y.ac.start (.record w p) g p)
  else (s.withSpans (undone s.rc.spans p r) r.dropped.length).unrecorded w.tick

/-- A record write is granted the bus (R143, R144). -/
def grantWrite (s : State) (w : PageWrite) : State :=
  match s.searchPage with
  | none => s.unrecorded w.tick
  | some p =>
    match s.ac.groupAt p with
    | none => s.unrecorded w.tick
    | some g => writeStep s w p g

/-- RECORD_WRITE_GRANT (R143): the bus is free and a page write waits; it is granted ahead of the others (R164). -/
def execRecordWriteGrant (s : State) : Host.Outcome State Fault Refusal :=
  .next
    (match s.ac.access, s.rc.writes with
     | none, w :: rest => grantWrite (s.withRc { s.rc with writes := rest }) w
     | _, _ => s)

/-- A record write completes (R146); an abandoned one adds no tick (R154). -/
def writeDone (s : State) (x : Access) (w : PageWrite) (p : Nat) : State :=
  let y := s.withAc { (s.ac.writeWords x.group x.page Config.pageWords (wordsOfBytes Config.pageWords w.bytes)) with access := none }
  if x.abandoned then y else y.withRc { y.rc with spans := joinTick y.rc.spans w.tick p, stall := false }

/-- RECORD_WRITE_COMPLETION (R146). -/
def execRecordWriteCompletion (s : State) : Host.Outcome State Fault Refusal :=
  .next
    (match s.ac.access with
     | some x =>
       match x.kind with
       | .record w p => writeDone s x w p
       | _ => s
     | none => s)

/-- The Recorder is told that its write ended in TIMEOUT (R148). -/
def State.writeTimedOut (s : State) (w : PageWrite) : State :=
  if w.retry then s.unrecorded w.tick else s.withRc { s.rc with writes := { w with retry := true } :: s.rc.writes }

end Sys2Proof.Machine
end

