-- ==== Sys2Proof/Machine/Archive.lean ====
section
/-!
DEFINITION. The Archive Controller (chapter 9): what it notes of the words it reads (R169, R170) and of damaged pages (R171, R172), the scrubber (R173, R174), the test
(R159 to R161), and its requests (R158, R162, R168, R169, R176).
Meanings: SCRUB_READ_GRANT, SCRUB_READ_COMPLETION, TEST_ACCESS_GRANT, TEST_ACCESS_COMPLETION, ARCHIVE_MAP, ARCHIVE_TEST, ARCHIVE_RECORD,
SPARE_LANE_SET, CAPTURE_READ, CAPTURE_CLEAR, ARCHIVE_READ.
-/

namespace Sys2Proof.Machine

/-! ## Errors noted on a read -/

/-- What is noted of a word read: whether the code corrected it, and whether it is uncorrectable or, in a test, differs from the pattern
(R160, R169, R170). -/
structure Note where
  offset : Nat
  syndrome : BitVec 8
  corrected : Bool
  bad : Bool
  deriving DecidableEq, Repr

/-- The note of a word of an export or scrub read. -/
def plainNote (r : Nat × WordRead) : Note :=
  ⟨r.1, r.2.syndrome, decide (r.2.outcome = .corrected), decide (r.2.outcome = .uncorrectable)⟩

/-- The first error of an access, as captured (R169): corrected words of a quiet row block are not taken. -/
def firstError (quiet : Bool) (ns : List Note) : Option (Note × CaptureKind) :=
  ns.findSome? (fun n =>
    if n.bad then some (n, .uncorrectable) else if n.corrected && !quiet then some (n, .corrected) else none)

/-- The counts of a group after a read (R170). -/
def GroupRecord.count (x : GroupRecord) (ns : List Note) : GroupRecord :=
  { x with
    corrected := min (x.corrected + (ns.filter (·.corrected)).length) Config.count16Top
    uncorrectable := min (x.uncorrectable + (ns.filter (·.bad)).length) Config.count16Top }

/-- The Error Capture Record takes an error while it is empty (R169). -/
def Ac.captured (ac : Ac) (c : Option Capture) : Ac :=
  { ac with capture := match ac.capture with | some x => some x | none => c }

/-- The counts and the capture after a read of a page by a requester (R169, R170). -/
def Ac.noteRead (ac : Ac) (g : Group) (page : Nat) (who : Requester) (ns : List Note) : Ac :=
  { ac with groups := ac.groups.update g (·.count ns) }.captured
    ((firstError (ac.spareOf g page).quiet ns).map
      (fun (e : Note × CaptureKind) => ⟨g, page, e.1.offset, e.1.syndrome, e.2, who⟩))

/-! ## Damage to evidence -/

/-- The EVIDENCE_DAMAGED report of a tick (R172); `w` is the offset of the first uncorrectable word. -/
def damageReport (w c tick : Nat) : Report where
  kind := .evidenceDamaged
  feed := some (Fin.ofNat 8 (w / Config.chunkWords))
  handle := none
  segmentId := none
  segmentKind := none
  raiseTick := c
  subjectFirst := tick
  subjectLast := tick
  measured := none
  limit := none
  unconfirmed := false

/-- A damaged page and its stored tick: listed if there is room, and reported when the tick is held (R171, R172). -/
def State.listDamage (s : State) (p tick w : Nat) : State :=
  if s.ac.damaged.any (fun e => decide (e.1 = p)) then s
  else
    let y :=
      if s.ac.damaged.length < Config.damagedListSize then
        s.withAc { s.ac with damaged := s.ac.damaged ++ [(p, tick)] }
      else s
    if isHeld s.ru.holds tick then y.sendReport (damageReport w s.raiseTickNow tick) else y

/-- What an export or scrub read of archive page `p` found (R171): nothing is done without an uncorrectable word, or when the page stores no
tick (log entry 33). -/
def State.noteDamage (s : State) (p : Nat) (ns : List Note) : State :=
  match ns.find? (·.bad), storedTick s.rc.spans p with
  | some n, some t => s.listDamage p t n.offset
  | _, _ => s

/-! ## The scrubber -/

/-- The first tick of the `n` ticks from `t` on that is present and not unavailable, with its page (R173). -/
def State.firstAvailable (s : State) : Nat → Nat → Option (Nat × Nat)
  | 0, _ => none
  | n + 1, t =>
    match s.presence t with
    | .available p => some (t, p)
    | _ => s.firstAvailable n (t + 1)

/-- A hold to consider, and the tick to consider first in it. -/
structure ScrubStart where
  index : Nat
  hold : Hold
  first : Nat
  deriving DecidableEq, Repr

/-- Holds to be considered from their first tick. -/
def fromFirst (es : List (Nat × Hold)) : List ScrubStart := es.map (fun e => ⟨e.1, e.2, e.2.first⟩)

/-- The active holds in the order the scrubber considers them at a close, each once (R173, log entry 25). -/
def scrubOrder (holds : List (Nat × Hold)) : Option ScrubCursor → List ScrubStart
  | none => fromFirst holds
  | some c =>
    match tableGet holds c.index with
    | some h =>
      if h.number = c.number then
        ⟨c.index, h, c.next⟩ :: fromFirst (holds.filter (fun e => decide (c.index < e.1)))
          ++ fromFirst (holds.filter (fun e => decide (e.1 < c.index)))
      else
        fromFirst (holds.filter (fun e => decide (c.index < e.1)) ++ holds.filter (fun e => decide (e.1 ≤ c.index)))
    | none =>
      fromFirst (holds.filter (fun e => decide (c.index < e.1)) ++ holds.filter (fun e => decide (e.1 ≤ c.index)))

/-- The tick and page a hold offers the scrubber. -/
def State.scrubOffer (s : State) (x : ScrubStart) : Option (ScrubStart × Nat × Nat) :=
  (s.firstAvailable (x.hold.last + 1 - x.first) x.first).map (fun r => (x, r.1, r.2))

/-- Whether an access is the scrubber's. -/
def AccessKind.isScrub : AccessKind → Bool
  | .scrub _ => true
  | _ => false

/-- Whether an earlier scrub read has not yet ended (R173, step 1). -/
def Ac.scrubbing (ac : Ac) : Bool :=
  ac.scrubRequest.isSome || (match ac.access with | some x => x.kind.isScrub | none => false)

/-- The scrubber's choice at a tick close while the archive is RECORDING (R173). -/
def State.scrubChoice (s : State) : State :=
  if s.ac.state = .recording ∧ s.ac.scrubbing = false then
    match (scrubOrder s.ru.holds s.ac.scrub).findSome? s.scrubOffer with
    | none => s
    | some (x, t, p) =>
      s.withAc
        { s.ac with scrub := some ⟨x.index, x.hold.number, t + 1⟩, scrubRequest := some ⟨t, p, allFeeds⟩ }
  else s

/-- A scrub read is granted: dropped unless its page still stores the chosen tick and is available (R174). -/
def grantScrub (s : State) (r : ReadRequest) : State :=
  let y := s.withAc { s.ac with scrubRequest := none }
  if s.presence r.tick = .available r.page then
    match s.ac.groupAt r.page with
    | some g => y.withAc (y.ac.start (.scrub r) g r.page)
    | none => y
  else y

/-- SCRUB_READ_GRANT (R174): the bus is free and no record write or export read waits (R164). -/
def execScrubReadGrant (s : State) : Host.Outcome State Fault Refusal :=
  .next
    (match s.ac.access, s.rc.writes, s.ac.exportRequest, s.ac.scrubRequest with
     | none, [], none, some r => grantScrub s r
     | _, _, _, _ => s)

/-- A scrub read ends with its words decoded: corrected words are written back, and errors counted, captured and listed (R174). -/
def scrubDone (s : State) (x : Access) (r : ReadRequest) (wrong : WrongLanes) : State :=
  let y := s.withAc { s.ac with access := none }
  if x.abandoned then y
  else
    let rs := s.ac.readWords x.group x.page pageOffsets wrong
    let ns := rs.map plainNote
    (y.withAc ((y.ac.writeBack x.group x.page rs).noteRead x.group x.page .scrubRead ns)).noteDamage r.page ns

/-- SCRUB_READ_COMPLETION (R174). -/
def execScrubReadCompletion (wrong : WrongLanes) (s : State) : Host.Outcome State Fault Refusal :=
  .next
    (match s.ac.access with
     | some x =>
       match x.kind with
       | .scrub r => scrubDone s x r wrong
       | _ => s
     | none => s)

/-! ## The archive test -/

/-- The test pattern: A in the upper 32 bits, its complement in the lower (R160). -/
def testWord (page w : Nat) : BitVec 64 :=
  let a := BitVec.ofNat 32 (Config.pageWords * page + w)
  a ++ ~~~a

/-- The words of a page's test pattern. -/
def testPage (page : Nat) : List (BitVec 64) := pageOffsets.map (testWord page)

/-- The note of a word of a test read: it also fails when its data differs from the pattern (R160, log entry 28). -/
def testNote (page : Nat) (r : Nat × WordRead) : Note :=
  ⟨r.1, r.2.syndrome, decide (r.2.outcome = .corrected),
   decide (r.2.outcome = .uncorrectable) || decide (r.2.data ≠ testWord page r.1)⟩

/-- The fault mark of a group is set (R160, R165). -/
def Ac.markFault (ac : Ac) (g : Group) : Ac := { ac with groups := ac.groups.update g (fun x => { x with faultMark := true }) }

/-- The group states a completed test sets (R161). -/
def Ac.testedGroups (ac : Ac) : Quad GroupRecord :=
  Quad.tab (fun g =>
    let x := ac.groups.get g
    if g ∈ ac.bank then { x with state := if x.faultMark then .faulted else .healthy } else x)

/-- The test completes (R161). -/
def State.testComplete (s : State) : State :=
  let ac := { s.ac with groups := s.ac.testedGroups, test := none, testRequest := false }
  (s.regroup { ac with state := if 0 < ac.healthyGroups then .tested else .mapped }).flagAll .archive

/-- The test moves on after a page was read, or after its group's fault mark was set (R160, R161). -/
def State.testAdvance (s : State) (x : TestPosition) (faulted : Bool) : State :=
  if faulted = false ∧ x.page + 1 < Config.groupPages then
    s.withAc { s.ac with test := some ⟨x.slot, x.page + 1, false⟩, testRequest := true }
  else if x.slot + 1 < s.ac.bank.length then
    s.withAc { s.ac with test := some ⟨x.slot + 1, 0, false⟩, testRequest := true }
  else s.testComplete

/-- TEST_ACCESS_GRANT (R160): the bus is free and the test waits for it. -/
def execTestAccessGrant (s : State) : Host.Outcome State Fault Refusal :=
  .next
    (match s.ac.access, s.ac.testRequest, s.ac.test with
     | none, true, some x =>
       match s.ac.bank[x.slot]? with
       | some g =>
         s.withAc
           { s.ac with
             testRequest := false
             access := some ⟨if x.reading then .testRead else .testWrite, g, x.page, false⟩ }
       | none => s
     | _, _, _ => s)

/-- A test write completes: the page holds the pattern, and its read is requested next (R160). -/
def testWritten (s : State) (x : Access) : State :=
  let y := s.withAc { (s.ac.writeWords x.group x.page Config.pageWords (testPage x.page)) with access := none }
  if x.abandoned then y
  else
    match y.ac.test with
    | some t => y.withAc { y.ac with test := some { t with reading := true }, testRequest := true }
    | none => y

/-- A test read completes: its words are compared with the pattern (R160). -/
def testRead (s : State) (x : Access) (wrong : WrongLanes) : State :=
  let y := s.withAc { s.ac with access := none }
  if x.abandoned then y
  else
    let ns := (s.ac.readWords x.group x.page pageOffsets wrong).map (testNote x.page)
    let faulted := ns.any (·.bad)
    let ac := y.ac.noteRead x.group x.page .test ns
    let z := y.withAc (if faulted then ac.markFault x.group else ac)
    match z.ac.test with
    | some t => z.testAdvance t faulted
    | none => z

/-- TEST_ACCESS_COMPLETION (R160). -/
def execTestAccessCompletion (wrong : WrongLanes) (s : State) : Host.Outcome State Fault Refusal :=
  .next
    (match s.ac.access with
     | some x =>
       match x.kind with
       | .testWrite => testWritten s x
       | .testRead => testRead s x wrong
       | _ => s
     | none => s)

/-! ## Mapping, testing, recording -/

/-- The groups of an ARCHIVE_MAP list, or none when the list is refused (R158). -/
def groupsOf (bs : List Byte) : Option (List Group) :=
  let gs := bs.filterMap groupOf
  if bs = [] ∨ 4 < bs.length ∨ gs.length ≠ bs.length ∨ ¬ gs.Nodup then none else some gs

/-- Group records after an accepted ARCHIVE_MAP (R157, R158). -/
def Ac.mappedGroups (ac : Ac) (gs : List Group) : Quad GroupRecord :=
  Quad.tab (fun g =>
    let x := ac.groups.get g
    if g ∈ gs then { x with state := .untested, corrected := 0, uncorrectable := 0 } else { x with state := .absent })

/-- The Bank Map in a reply: its four slots (log entry 20). -/
def bankFields (bank : List Group) : List Wire :=
  ((List.range 4).map (fun i => optionalField (fun (g : Group) => [.byte g.val]) bank[i]?)).flatten

/-- The AC takes an ARCHIVE_MAP (R158). -/
def archiveMapTaken (bs : List Byte) (s : State) : State × Reply :=
  if s.ac.state = .testing ∨ s.ac.state = .recording then refuse .wrongState s
  else
    match groupsOf bs with
    | none => refuse .badArgument s
    | some gs =>
      ((s.regroup { s.ac with bank := gs, groups := s.ac.mappedGroups gs, state := .mapped }).flagAll .archive,
        ⟨.ok, bankFields gs ++ [.long (Config.groupPages * gs.length)]⟩)

/-- ARCHIVE_MAP (R158): its list may have any length (log entry 18). -/
def execArchiveMap (l : Link) (groups : List Byte) (s : State) : Host.Outcome State Fault Refusal :=
  .next (passRequest 43 l (.fits groups) s archiveMapTaken)

/-- Group records when a test begins (R159). -/
def Ac.testGroups (ac : Ac) : Quad GroupRecord :=
  Quad.tab (fun g => if g ∈ ac.bank then ⟨.untested, 0, 0, false⟩ else ac.groups.get g)

/-- The AC takes an ARCHIVE_TEST (R159): the first access is requested. -/
def archiveTestTaken (_ : Unit) (s : State) : State × Reply :=
  if s.ac.state = .mapped ∨ s.ac.state = .tested then
    ((s.regroup
        { s.ac with groups := s.ac.testGroups, test := some ⟨0, 0, false⟩, testRequest := true, state := .testing }).flagAll
        .archive,
      ⟨.ok, [.long s.ac.installed]⟩)
  else refuse .wrongState s

/-- ARCHIVE_TEST (R159). -/
def execArchiveTest (l : Link) (p : Payload Unit) (s : State) : Host.Outcome State Fault Refusal :=
  .next (passRequest 44 l p s archiveTestTaken)

/-- The AC takes an ARCHIVE_RECORD (R153, R162). -/
def archiveRecordTaken (_ : Unit) (s : State) : State × Reply :=
  if s.ac.state = .tested then
    (((s.withAc { s.ac with state := .recording, scrub := none }).withRc { s.rc with writePos := 0, stall := false }).flagAll
        .archive,
      ⟨.ok, [.long s.ac.installed, .long s.ru.healthyPages]⟩)
  else refuse .wrongState s

/-- ARCHIVE_RECORD (R162). -/
def execArchiveRecord (l : Link) (p : Payload Unit) (s : State) : Host.Outcome State Fault Refusal :=
  .next (passRequest 45 l p s archiveRecordTaken)

/-! ## Spare lanes and the capture record -/

/-- The fields of a Spare Lane Map entry. -/
def spareFields (e : SpareEntry) : List Wire := optionalField (fun k => [.byte k]) e.lane ++ [.choice e.quiet]

/-- The entry a SPARE_LANE_SET asks for, or none when an argument is refused (R168): lane 72 is stored as none. -/
def spareEntryOf (a : SpareLaneSetArgs) : Option SpareEntry :=
  match choiceOf a.quiet, a.lane with
  | none, _ => none
  | some q, none => some ⟨none, q⟩
  | some q, some k => if 72 < k.toNat then none else some ⟨if k.toNat = 72 then none else some k.toNat, q⟩

/-- The AC takes a SPARE_LANE_SET (R168). -/
def spareLaneTaken (a : SpareLaneSetArgs) (s : State) : State × Reply :=
  match groupOf a.group, spareEntryOf a with
  | some g, some e =>
    if 16 ≤ a.rowBlock.toNat then refuse .badArgument s
    else if s.ac.state = .mapped ∨ s.ac.state = .tested then
      (s.withAc { s.ac with spares := s.ac.spares.update g (fun es => es.set a.rowBlock.toNat e) }, ⟨.ok, spareFields e⟩)
    else refuse .wrongState s
  | _, _ => refuse .badArgument s

/-- SPARE_LANE_SET (R168). -/
def execSpareLaneSet (l : Link) (p : Payload SpareLaneSetArgs) (s : State) : Host.Outcome State Fault Refusal :=
  .next (passRequest 47 l p s spareLaneTaken)

/-- The fields of a full Error Capture Record (R169): a page in four bytes and a word offset in two (log entry 49). -/
def captureFields (c : Capture) : List Wire :=
  [.byte c.group.val, .long c.page, .word c.word, .byte c.syndrome.toNat, .byte c.kind.place, .byte c.requester.place]

/-- The AC takes a CAPTURE_READ (R169). -/
def captureReadTaken (_ : Unit) (s : State) : State × Reply := (s, ⟨.ok, optionalField captureFields s.ac.capture⟩)

/-- CAPTURE_READ (R169). -/
def execCaptureRead (l : Link) (p : Payload Unit) (s : State) : Host.Outcome State Fault Refusal :=
  .next (passRequest 10 l p s captureReadTaken)

/-- The AC takes a CAPTURE_CLEAR (R169). -/
def captureClearTaken (_ : Unit) (s : State) : State × Reply :=
  (s.withAc { s.ac with capture := none }, ⟨.ok, optionalField captureFields s.ac.capture⟩)

/-- CAPTURE_CLEAR (R169). -/
def execCaptureClear (l : Link) (p : Payload Unit) (s : State) : Host.Outcome State Fault Refusal :=
  .next (passRequest 41 l p s captureClearTaken)

/-! ## Reading the archive's condition -/

/-- Pages of a span that lie in FAULTED groups (R151): over the slots, the pages the span shares with a slot of a FAULTED group. -/
def Ac.faultedPages (ac : Ac) (x : Span) : Nat :=
  (ac.bank.zipIdx.map (fun e =>
    if (ac.groups.get e.1).state = .faulted then
      min (x.firstPage + x.length) (Config.groupPages * (e.2 + 1)) - max x.firstPage (Config.groupPages * e.2)
    else 0)).sum

/-- A span in a reply (R151; log entry 49). -/
def spanFields (ac : Ac) (x : Span) : List Wire := [.tick x.firstTick, .long x.firstPage, .long x.length, .long (ac.faultedPages x)]

/-- The write in flight: its tick and whether it is a retry (R151); an abandoned one is none (R154). -/
def Ac.writeInFlight (ac : Ac) : Option (Nat × Bool) :=
  match ac.access with
  | some x =>
    match x.kind with
    | .record w _ => if x.abandoned then none else some (w.tick, w.retry)
    | _ => none
  | none => none

/-- What ARCHIVE_READ shows of a group (R176). -/
def groupFields (x : GroupRecord) : List Wire := [.byte x.state.place, .word x.corrected, .word x.uncorrectable]

/-- The fault mark that ARCHIVE_READ shows of a group: only a mapped group is under test (R159, R160). -/
def Ac.shownMark (ac : Ac) (g : Group) : Bool := decide (g ∈ ac.bank) && (ac.groups.get g).faultMark

/-- The test under way: slot, page within the group, fault marks of the four groups (R176; log entries 20, 48 and 49). -/
def testFields (ac : Ac) (x : TestPosition) : List Wire :=
  [.byte x.slot, .long x.page] ++ allGroups.map (fun g => .choice (ac.shownMark g))

/-- The Recorder's items of R151 but its spans (the write position in four bytes: log entry 49). -/
def recorderFields (s : State) : List Wire :=
  [.long s.rc.writePos, .word s.rc.spans.length]
    ++ optionalField (fun t => [.tick t]) (oldestPresent s.rc.spans)
    ++ optionalField (fun t => [.tick t]) (newestPresent s.rc.spans)
    ++ [.long s.rc.discarded, .choice s.rc.stall]
    ++ optionalField (fun (w : Nat × Bool) => [.tick w.1, .choice w.2]) s.ac.writeInFlight

/-- The SUMMARY section (R176). Its four groups are a fixed run with no number of items before it (log entry 48). -/
def summarySection (s : State) : List Wire :=
  [.byte s.ac.state.place] ++ bankFields s.ac.bank ++ [.long s.ac.installed, .long s.ru.healthyPages]
    ++ (s.ac.groups.toList.map groupFields).flatten
    ++ optionalField (testFields s.ac) (if s.ac.state = .testing then s.ac.test else none)
    ++ optionalField (fun (c : ScrubCursor) => [.byte c.index, .long c.number, .tick c.next]) s.ac.scrub
    ++ [.word s.ac.damaged.length, .choice s.ac.capture.isSome] ++ recorderFields s ++ [.word 0]

/-- A section that lists up to 8 items from a position, with the number beyond those returned (R176). -/
def pagedSection (f : α → List Wire) (xs : List α) (position : Nat) : List Wire :=
  listed f ((xs.drop position).take Config.itemsPerReply) ++ [.word ((xs.drop position).length - Config.itemsPerReply)]

/-- The SPARE_LANES section of a group (R176): its 16 entries are a list with their number before them (log entry 48). -/
def spareSection (s : State) (g : Group) : List Wire := listed spareFields (s.ac.spares.get g) ++ [.word 0]

/-- A Damaged Page List entry in a reply (R176; log entry 49). -/
def damagedFields (holds : List (Nat × Hold)) (e : Nat × Nat) : List Wire := [.long e.1, .tick e.2, .choice (isHeld holds e.2)]

/-- The content of a section from a position, or none when it is refused (R176): SUMMARY 0, SPANS 1, DAMAGED 2, SPARE_LANES 3. -/
def sectionFields (s : State) (part position : Nat) : Option (List Wire) :=
  match part with
  | 0 => if position = 0 then some (summarySection s) else none
  | 1 => if position < Config.spanListSize then some (pagedSection (spanFields s.ac) s.rc.spans position) else none
  | 2 =>
    if position < Config.damagedListSize then some (pagedSection (damagedFields s.ru.holds) s.ac.damaged position) else none
  | 3 => if h : position < 4 then some (spareSection s ⟨position, h⟩) else none
  | _ => none

/-- The AC takes an ARCHIVE_READ (R176). -/
def archiveReadTaken (a : ArchiveReadArgs) (s : State) : State × Reply :=
  match sectionFields s a.part.toNat a.position.toNat with
  | some fs => (s, ⟨.ok, fs⟩)
  | none => refuse .badArgument s

/-- ARCHIVE_READ (R176). -/
def execArchiveRead (l : Link) (p : Payload ArchiveReadArgs) (s : State) : Host.Outcome State Fault Refusal :=
  .next (passRequest 9 l p s archiveReadTaken)

end Sys2Proof.Machine
end

