-- ==== Sys2Proof/Machine/Feeds.lean ====
section
/-!
DEFINITION. Audio Lanes, the Caption Lane and feed settings (chapter 1), with what a word clock period and a packet do in the Level Meter
(R16 to R18), the Caption Checker (R39, R41, R42) and the Recorder (R138, R139, R141).
Meanings: WORD_CLOCK_PERIOD, LANE_LOCK, CAPTION_PACKET, FEED_SET.
-/

namespace Sys2Proof.Machine

/-! ## A word clock period -/

/-- The lock tracker after it judged a frame (R1). -/
def Lane.judge (x : Lane) (frame : LaneFrame) : Lane :=
  match frame with
  | none => ⟨false, 0⟩
  | some _ =>
    if x.locked then x
    else if Config.lockRun ≤ x.run + 1 then ⟨true, Config.lockRun⟩
    else ⟨false, x.run + 1⟩

/-- The zero filter state of a layout (R17). -/
def zeroFilters (lay : Layout) : List ChannelFilter := List.replicate (slotsOf lay) ChannelFilter.zero

/-- Whether a feed is effectively locked with the given lane state (R2). -/
def effectivelyLocked (x : FeedSetting) (lane : Lane) : Bool := x.enabled && lane.locked

/-- The samples a feed takes in a period: those of a valid frame while it is effectively locked (R1, R2). -/
def takenSamples (x : FeedSetting) (lane : Lane) (frame : LaneFrame) : Option Samples :=
  if effectivelyLocked x lane then frame else none

/-- Filter states and channel energies of a feed after a period; the state is zeroed first when the feed becomes effectively locked
again (R2, R16 to R18). -/
def periodAudio (x : FeedSetting) (heard : Bool) (zs : List ChannelFilter) (es : List Nat) (taken : Option Samples) :
    List ChannelFilter × List Nat :=
  match taken with
  | none => (zs, es)
  | some smp => weightChannels (if heard then zs else zeroFilters x.layout) es (usedSamples x.layout smp)

/-- The proxy encoder after a period; `ends` says that the period is the sixth of its group (R138, R139). A group with fewer than six source samples gets
the code of its partial sum, which the close of the broken tick discards (R140; log entry 46). -/
def Encoder.period (x : Encoder) (lay : Layout) (taken : Option Samples) (ends : Bool) : Encoder :=
  let sum := x.sum + (match taken with | none => 0 | some smp => sourceSample lay smp)
  if ends then ⟨0, x.codes ++ [compand (decimate sum)]⟩ else ⟨sum, x.codes⟩

/-- One Station Word Clock period (R1, R2, R7, R16 to R18, R138, R139). -/
def wordClock (s : State) (frames : Oct LaneFrame) : State :=
  let lanes := Oct.tab (fun f => (s.fiu.lanes.get f).judge (frames.get f))
  let heard := Oct.tab (fun f => effectivelyLocked (s.fiu.settings.get f) (lanes.get f))
  let taken := Oct.tab (fun f => takenSamples (s.fiu.settings.get f) (lanes.get f) (frames.get f))
  let audio := Oct.tab (fun f => periodAudio (s.fiu.settings.get f) (s.fiu.heard.get f) (s.fiu.filters.get f)
    (s.lm.energies.get f) (taken.get f))
  let ends := decide ((s.fiu.periods + 1) % 6 = 0)
  ((s.withFiu
      { s.fiu with
        periods := s.fiu.periods + 1
        lanes := lanes
        heard := heard
        broken := Oct.tab (fun f => s.fiu.broken.get f || !(heard.get f))
        filters := audio.map (·.1) }).withLm
      { s.lm with energies := audio.map (·.2) }).withRc
    { s.rc with
      encoders := Oct.tab (fun f => (s.rc.encoders.get f).period (s.fiu.settings.get f).layout (taken.get f) ends) }

/-- WORD_CLOCK_PERIOD (R1): no effect once the 4,800 periods of the open tick are complete; the tick closes first (log entry 1). -/
def execWordClockPeriod (frames : Oct LaneFrame) (s : State) : Host.Outcome State Fault Refusal :=
  .next (if s.fiu.periods < Config.periodsPerTick then wordClock s frames else s)

/-- LANE_LOCK (R1, R2): the 48th valid frame of an UNLOCKED lane; the filter state is cleared before its sample is taken. The period's
own command takes the sample (log entry 5). -/
def execLaneLock (f : Feed) (s : State) : Host.Outcome State Fault Refusal :=
  let x := s.fiu.lanes.get f
  .next
    (if x.locked = false ∧ x.run + 1 = Config.lockRun ∧ s.fiu.periods < Config.periodsPerTick then
      s.withFiu
        { s.fiu with
          lanes := s.fiu.lanes.set f ⟨true, Config.lockRun⟩
          filters :=
            if (s.fiu.settings.get f).enabled then s.fiu.filters.set f (zeroFilters (s.fiu.settings.get f).layout)
            else s.fiu.filters }
    else s)

/-! ## Caption packets -/

/-- The tag of a SHOW body (R5). -/
def packetTag (body : List Byte) : Option Tag :=
  match body with
  | a :: b :: c :: _ => some ⟨a, b, c⟩
  | _ => none

/-- Whether the FIU passes a packet on (R6). -/
def packetValid (p : Packet) : Bool :=
  decide (p.body.length = p.declared) &&
    (match p.kind with
     | .show => decide (3 ≤ p.declared) && decide (p.declared ≤ 123) && ((packetTag p.body).map tagValid).getD false
     | .clear => decide (p.declared = 0)
     | .keepalive => decide (p.declared = 0)
     | .other => false)

/-- The gathering record takes a SHOW with tag `g` (R42). -/
def gatherTag (tags : List Tag) (g : Tag) : List Tag :=
  if g ∈ tags then tags else if tags.length < 4 then tags ++ [g] else tags

/-- The Caption Checker takes a valid packet during tick `t` (R39, R41, R42). -/
def CaptionFeed.take (x : CaptionFeed) (t : Nat) (p : Packet) : CaptionFeed :=
  let y := { x with carriage := true, lastPacket := some t }
  match p.kind, packetTag p.body with
  | .show, some g =>
    { y with state := .shown g, age := 0, shownAny := true, shownTags := gatherTag x.shownTags g }
  | .clear, _ => { y with state := .clear, age := 0 }
  | _, _ => y

/-- The bytes of a packet's caption event (R141). -/
def eventBytes (p : Packet) : List Byte :=
  match p.kind with
  | .show => 1 :: p.body.take 3 ++ BitVec.ofNat 8 (p.body.length - 3) :: p.body.drop 3
  | .clear => [2, 0]
  | _ => [3, 0]

/-- The caption event buffer takes a valid packet, or drops it (R141). -/
def CaptionBuffer.take (x : CaptionBuffer) (p : Packet) : CaptionBuffer :=
  if x.truncated = false ∧ x.bytes.length + (eventBytes p).length ≤ Config.captionAreaBytes then
    ⟨x.bytes ++ eventBytes p, x.events + 1, false⟩
  else { x with truncated := true }

/-- A packet of feed `f`: counted when invalid, otherwise handed to the Caption Checker and the Recorder (R5, R6). -/
def takePacket (s : State) (f : Feed) (p : Packet) : State :=
  if packetValid p then
    (s.withCc ⟨s.cc.feeds.update f (fun x => x.take s.fiu.openTick p)⟩).withRc
      { s.rc with captions := s.rc.captions.update f (fun x => x.take p) }
  else
    s.withFiu { s.fiu with captionErrors := s.fiu.captionErrors.update f (fun n => min (n + 1) Config.count16Top) }

/-- CAPTION_PACKET (R5, R6). A packet whose feed cannot be read is dropped (R14, log entry 23). -/
def execCaptionPacket (p : Packet) (s : State) : Host.Outcome State Fault Refusal :=
  .next (match p.feed with | some f => takePacket s f p | none => s)

/-! ## Feed settings -/

/-- The FIU takes a FEED_SET (R4). -/
def feedSetTaken (a : FeedSetArgs) (s : State) : State × Reply :=
  match feedOf a.feed, layoutOf a.layout, choiceOf a.enable with
  | some f, some lay, some en =>
    (s.withFiu { s.fiu with pendingSettings := s.fiu.pendingSettings.set f (some ⟨lay, en⟩) },
      ⟨.ok, .byte f.val :: settingFields ⟨lay, en⟩⟩)
  | _, _, _ => refuse .badArgument s

/-- FEED_SET (R4). -/
def execFeedSet (l : Link) (p : Payload FeedSetArgs) (s : State) : Host.Outcome State Fault Refusal :=
  .next (passRequest 34 l p s feedSetTaken)

end Sys2Proof.Machine
end

