-- ==== Sys2Proof/Machine/Loudness.lean ====
section
/-!
DEFINITION. The Level Meter at settle (chapter 2): binding and results of integrators (R24, R25, R31 to R34), crediting (R27 to R29), and METER
(R35, R36). Meanings: SETTLED_TICK_NOTICE_LM, METER.
-/

namespace Sys2Proof.Machine

/-! ## Energies at a close -/

/-- The sum of T over the records of the `n` ticks that end with `c`, the record of `c` itself not counted (R20). -/
def windowBefore (h : List TickRecord) (c n : Nat) : Nat :=
  ((h.filter (fun r => decide (c < r.tick + n) && decide (r.tick < c))).map (·.tickEnergy)).sum

/-! ## Integrators -/

/-- An integrator bound to a new segment, its other fields cleared (R24). -/
def Integrator.bound (h : Handle) : Integrator := { Integrator.unbound with binding := some h }

/-- The Level Meter is told of an opened segment (R24). -/
def Lm.opened (lm : Lm) (f : Feed) (kind : SegmentKind) (h : Handle) : Lm :=
  match kind with
  | .programme => { lm with programme := lm.programme.set f (Integrator.bound h) }
  | .unscheduled => { lm with programme := lm.programme.set f (Integrator.bound h) }
  | .item => { lm with item := lm.item.set f (Integrator.bound h) }
  | .adBreak => lm

/-- The integrator that serves a kind of segment on a feed; a BREAK has none (section 2.4). -/
def Lm.integratorOf (lm : Lm) (f : Feed) (kind : SegmentKind) : Option Integrator :=
  match kind with
  | .programme => some (lm.programme.get f)
  | .unscheduled => some (lm.programme.get f)
  | .item => some (lm.item.get f)
  | .adBreak => none

/-- The results of an integrator at the close of its segment (R25, R31 to R33). -/
def Integrator.results (x : Integrator) : Loudness :=
  match integratedLevel x.bins with
  | none => ⟨x.qualified, x.active, 0, x.maxMomentary, x.maxShortTerm, none, true⟩
  | some (n, v) => ⟨x.qualified, x.active, n, x.maxMomentary, x.maxShortTerm, some v, false⟩

/-- The Level Meter takes a close: the integrator of the closed segment is unbound (R25). -/
def Lm.closed (lm : Lm) (f : Feed) (kind : SegmentKind) : Lm :=
  match kind with
  | .programme => { lm with programme := lm.programme.update f (fun x => { x with binding := none }) }
  | .unscheduled => { lm with programme := lm.programme.update f (fun x => { x with binding := none }) }
  | .item => { lm with item := lm.item.update f (fun x => { x with binding := none }) }
  | .adBreak => lm

/-! ## Crediting at settle -/

/-- Whether tick `t` is a member of the segment, read at level 2 for an item and at level 1 otherwise (R28). -/
def memberAt (h : List TickRecord) (level2 : Bool) (seg : Handle) (t : Nat) : Bool :=
  match (readHistory h t).membership with
  | none => false
  | some m => if level2 then decide (m.level2 = some seg) else decide (m.level1 = seg)

/-- Whether each of the `n` ticks ending with `t` is a member of the segment (R28, R29). -/
def windowMembers (h : List TickRecord) (level2 : Bool) (seg : Handle) (t n : Nat) : Bool :=
  (List.range n).all (fun i => decide (i ≤ t) && memberAt h level2 seg (t - i))

/-- A credited block of energy `b` (R28). -/
def Integrator.creditBlock (x : Integrator) (b : Nat) : Integrator :=
  let v := lv b
  let y := { x with qualified := x.qualified + 1, maxMomentary := max x.maxMomentary v }
  if activeBlock b then
    let z := (tableGet x.bins (binOf v)).getD ⟨0, 0⟩
    { y with active := x.active + 1, bins := tablePut x.bins (binOf v) ⟨z.count + 1, z.sum + b⟩ }
  else y

/-- A credited short-term window of energy `e` (R29). -/
def Integrator.creditWindow (x : Integrator) (e : Nat) : Integrator :=
  let v := lv (normalisedShortTerm e)
  { x with maxShortTerm := some (match x.maxShortTerm with | none => v | some w => max w v) }

/-- Block test, then window test, against the candidate's segment (R27 to R29). -/
def Integrator.credit (x : Integrator) (h : List TickRecord) (level2 : Bool) (seg : Handle) (t : Nat) : Integrator :=
  let r := readHistory h t
  let y := if windowMembers h level2 seg t 4 then x.creditBlock r.blockEnergy else x
  if windowMembers h level2 seg t 30 then y.creditWindow r.shortTermEnergy else y

/-- The Level Meter handles a Settled Tick notice of feed `f` (R27): the candidate is the item's integrator, else the programme's. -/
def Lm.handle (lm : Lm) (h : List TickRecord) (f : Feed) (n : Notice) : Lm :=
  if n.membership.level2.isSome ∧ (lm.item.get f).binding = n.membership.level2 then
    match n.membership.level2 with
    | some seg => { lm with item := lm.item.update f (fun x => x.credit h true seg n.tick) }
    | none => lm
  else if (lm.programme.get f).binding = some n.membership.level1 then
    { lm with programme := lm.programme.update f (fun x => x.credit h false n.membership.level1 n.tick) }
  else lm

/-- SETTLED_TICK_NOTICE_LM (R27): the waiting notice of the feed is handled. -/
def execSettledTickNoticeLm (f : Feed) (s : State) : Host.Outcome State Fault Refusal :=
  .next
    (match s.sg.noticeLm.get f with
     | none => s
     | some n =>
       (s.withLm (s.lm.handle (s.fiu.history.get f) f n)).withSg
         { s.sg with noticeLm := s.sg.noticeLm.set f none })

/-! ## METER -/

/-- The effective segment of tick F of a feed: its handle and its record while the Segment Table holds it (R36). -/
def State.effectiveAtFrontier (s : State) (f : Feed) : Option (Handle × Segment) :=
  match s.fiu.frontier with
  | none => none
  | some t =>
    match (readHistory (s.fiu.history.get f) t).membership with
    | none => none
    | some m =>
      let h := m.level2.getD m.level1
      match tableGet s.sg.table h.index with
      | some r => if r.openTick = h.openTick then some (h, r) else none
      | none => none

/-- The fields of a caption state with its tag (R36). -/
def captionStateFields : CaptionState → List Wire
  | .clear => [.byte 0, .byte 0]
  | .shown t => [.byte 1, .byte 1, .tag t]
  | .stale => [.byte 2, .byte 0]

/-- METER's payload for a feed (R36). LOCKED is 0 and UNLOCKED 1, in the order of R1's sentence (log entry 45). -/
def meterFields (s : State) (f : Feed) : List Wire :=
  let newest := (s.fiu.history.get f).getLast?
  let cc := s.cc.feeds.get f
  [.byte f.val] ++ settingFields (s.fiu.settings.get f)
    ++ optionalField settingFields (s.fiu.pendingSettings.get f)
    ++ [.byte (if (s.fiu.lanes.get f).locked then 0 else 1)]
    ++ optionalField (fun (r : TickRecord) => [.tick r.tick]) newest
    ++ optionalField (fun (r : TickRecord) => [.choice r.noInput]) newest
    ++ [.signedWord (match newest with | some r => lv r.blockEnergy | none => -999),
        .signedWord (match newest with | some r => lv (normalisedShortTerm r.shortTermEnergy) | none => -999)]
    ++ captionStateFields cc.state
    ++ [.word cc.age, .byte (if cc.carriage then 0 else 1), .word (s.fiu.captionErrors.get f)]
    ++ optionalField (fun t => [.tick t]) s.fiu.frontier
    ++ optionalField (fun (x : Handle × Segment) => handleFields x.1 ++ [.byte x.2.kind.place]
         ++ optionalField (fun i => [.long i]) x.2.segmentId ++ [.byte x.2.state.place]) (s.effectiveAtFrontier f)

/-- The Level Meter takes a METER (R36). -/
def meterTaken (b : Byte) (s : State) : State × Reply :=
  match feedOf b with
  | some f => (s, ⟨.ok, meterFields s f⟩)
  | none => refuse .badArgument s

/-- METER (R36). -/
def execMeter (l : Link) (p : Payload Byte) (s : State) : Host.Outcome State Fault Refusal :=
  .next (passRequest 2 l p s meterTaken)

end Sys2Proof.Machine
end

