-- ==== Sys2Proof/Machine/Captions.lean ====
section
/-!
DEFINITION. The Caption Checker (chapter 3): the close of a tick (R40, R41, R43), judging a settled tick (R44 to R48) and its three watches
(R49 to R54). Meanings: CAPTION_STALE, CARRIAGE_ABSENT, SETTLED_TICK_NOTICE_CC.
-/

namespace Sys2Proof.Machine

/-! ## The close of a tick -/

/-- Whether the most recent packet lies within the carriage window of tick `c` (R41). -/
def recentPacket (x : CaptionFeed) (c : Nat) : Bool :=
  match x.lastPacket with
  | none => false
  | some p => decide (c < p + Config.carriageWindow) && decide (p ≤ c)

/-- Caption age and STALE at a close (R40). -/
def CaptionFeed.ageAtClose (x : CaptionFeed) : CaptionFeed :=
  if x.age < Config.staleAge then
    { x with
      age := x.age + 1
      state := match x.state with
        | .shown t => if x.age + 1 = Config.staleAge then .stale else .shown t
        | st => st }
  else x

/-- Caption age, then carriage, at the close of tick `c` (R40, R41). -/
def CaptionFeed.atClose (x : CaptionFeed) (c : Nat) : CaptionFeed :=
  let y := x.ageAtClose
  { y with carriage := y.carriage && recentPacket y c }

/-- The gathering record starts afresh at the opening of a tick (R42). -/
def CaptionFeed.gatherAfresh (x : CaptionFeed) : CaptionFeed :=
  match x.state with
  | .shown t => { x with shownAny := true, shownTags := [t] }
  | _ => { x with shownAny := false, shownTags := [] }

/-- CAPTION_STALE (R40): at the close of a tick the age of a SHOWN feed reaches 300. TICK_CLOSE finds it done (log entry 5). -/
def execCaptionStale (f : Feed) (s : State) : Host.Outcome State Fault Refusal :=
  let x := s.cc.feeds.get f
  .next
    (match x.state with
     | .shown _ =>
       if s.fiu.periods = Config.periodsPerTick ∧ x.age + 1 = Config.staleAge then
         s.withCc ⟨s.cc.feeds.set f { x with state := .stale, age := Config.staleAge }⟩
       else s
     | _ => s)

/-- CARRIAGE_ABSENT (R41): at the close of a tick no valid packet lies within the last fifty ticks. TICK_CLOSE finds it done
(log entry 5). -/
def execCarriageAbsent (f : Feed) (s : State) : Host.Outcome State Fault Refusal :=
  let x := s.cc.feeds.get f
  .next
    (if s.fiu.periods = Config.periodsPerTick ∧ x.carriage = true ∧ recentPacket x s.fiu.openTick = false then
      s.withCc ⟨s.cc.feeds.set f { x with carriage := false }⟩
    else s)

/-! ## Judging a settled tick -/

/-- The record a handle names, while it matches (R79). -/
def segmentAt (table : List (Nat × Segment)) (h : Handle) : Option Segment :=
  match tableGet table h.index with
  | some r => if r.openTick = h.openTick then some r else none
  | none => none

/-- How a settled tick was judged (R45 to R47). -/
structure Judgement where
  speech : Bool
  covered : Bool
  wrong : Bool
  deriving DecidableEq, Repr

/-- Whether the caption facts of a tick meet a requirement (R46). -/
def covers (req : Requirement) (r : TickRecord) : Bool :=
  match req with
  | .none => false
  | .any => r.shownAny && !r.stale
  | .tag g => decide (g ∈ r.shownTags) && !r.stale

/-- Whether a requirement names a tag. -/
def Requirement.isTag : Requirement → Bool
  | .tag _ => true
  | _ => false

/-- The judgement of a tick record under its effective segment (R45 to R47). -/
def judgeTick (e : Segment) (r : TickRecord) : Judgement :=
  let speech := activeBlock r.blockEnergy && decide (e.limits.speechThreshold ≤ lv r.blockEnergy)
  let covered := covers e.requirement r
  ⟨speech, covered, Requirement.isTag e.requirement && speech && !covered && !r.stale && !r.shownTags.isEmpty⟩

/-- A segment's part of a report (R102). -/
def segmentReport (k : IncidentKind) (h : Handle) (e : Segment) (raise first last : Nat) (measured limit : Option Int)
    (unconfirmed : Bool) : Report where
  kind := k
  feed := some e.feed
  handle := some h
  segmentId := e.segmentId
  segmentKind := some (.segment e.kind)
  raiseTick := raise
  subjectFirst := first
  subjectLast := last
  measured := measured
  limit := limit
  unconfirmed := unconfirmed

/-- Whether R49 resets the gap counter at a notice. -/
def gapReset (x : CaptionFeed) (h : Handle) (e : Segment) (m : Membership) (j : Judgement) : Bool :=
  m.partStart || m.itemStart || decide (x.previous ≠ some h) || decide (e.requirement = .none) || j.covered

/-- The gap counter after a notice, and whether the tick was counted and a SUBTITLE_GAP is raised (R49, R50). It rises without bound, past the 2^32 - 1 of R50
too (log entry 10). -/
def CaptionFeed.gapWatch (x : CaptionFeed) (h : Handle) (e : Segment) (n : Notice) (j : Judgement) :
    CaptionFeed × Bool × Bool :=
  let y := { x with previous := some h }
  if gapReset x h e n.membership j then ({ y with gap := 0, gapReported := false }, false, false)
  else if j.speech then
    let reached := decide (e.limits.maxGap ≤ x.gap + 1) && !x.gapReported
    ({ y with
       gap := x.gap + 1
       gapStart := if x.gap = 0 then some n.tick else x.gapStart
       gapReported := x.gapReported || reached }, true, reached)
  else (y, false, false)

/-- The carriage watch, and whether a CARRIAGE_LOST is raised (R51). -/
def CaptionFeed.carriageWatch (x : CaptionFeed) (e : Segment) (r : TickRecord) : CaptionFeed × Bool :=
  if e.requirement = .none ∨ r.carriage = true then ({ x with carriageLost := false }, false)
  else ({ x with carriageLost := true }, !x.carriageLost)

/-- The dead-air counter after a notice of tick `t` (R52). It rises without bound, past the 2^32 - 1 of R52 too (log entry 10). -/
def CaptionFeed.advanceDeadAir (x : CaptionFeed) (t : Nat) (r : TickRecord) : CaptionFeed :=
  if r.noInput || !(activeBlock r.blockEnergy) then
    { x with deadAir := x.deadAir + 1, deadAirStart := if x.deadAir = 0 then some t else x.deadAirStart }
  else { x with deadAir := 0, deadAirReported := false }

/-- The dead-air watch, and whether a DEAD_AIR is raised (R53). -/
def CaptionFeed.deadAirWatch (x : CaptionFeed) (e : Segment) (t : Nat) (r : TickRecord) : CaptionFeed × Bool :=
  let y := x.advanceDeadAir t r
  match e.limits.deadAir with
  | none => (y, false)
  | some lim => if lim ≤ y.deadAir ∧ y.deadAirReported = false then ({ y with deadAirReported := true }, true) else (y, false)

/-- The effective segment's credits for a tick (R48, R50, R53), beside its member tick. -/
def Segment.credited (e : Segment) (j : Judgement) (counted : Bool) (gap : Nat) (gapRaised deadRaised : Bool) : Segment :=
  { e with
    speechTicks := e.speechTicks + j.speech.toNat
    coveredTicks := e.coveredTicks + (j.speech && j.covered).toNat
    wrongTicks := e.wrongTicks + j.wrong.toNat
    longestGap := if counted then max e.longestGap gap else e.longestGap
    gapCount := e.gapCount + gapRaised.toNat
    deadAirRuns := e.deadAirRuns + deadRaised.toNat }

/-- A member tick credited to the record of a handle (R48). -/
def creditMember (table : List (Nat × Segment)) (h : Handle) : List (Nat × Segment) :=
  tableUpdate table h.index (fun r => if r.openTick = h.openTick then { r with memberTicks := r.memberTicks + 1 } else r)

/-- A notice handled by the three watches of a feed: its new state, whether the tick joined the gap, and the kinds raised, gap, carriage
and dead air (R49 to R53). -/
def CaptionFeed.watches (x : CaptionFeed) (h : Handle) (e : Segment) (n : Notice) (r : TickRecord) :
    CaptionFeed × Bool × Bool × Bool × Bool :=
  let g := x.gapWatch h e n (judgeTick e r)
  let c := g.1.carriageWatch e r
  let d := c.1.deadAirWatch e n.tick r
  (d.1, g.2.1, g.2.2, c.2, d.2)

/-- The reports of a notice, in watch order (R54); `x` is the feed's state after the watches. -/
def captionReports (x : CaptionFeed) (h : Handle) (e : Segment) (t : Nat) (gap lost dead : Bool) : List Report :=
  (if gap then
    [segmentReport .subtitleGap h e t (x.gapStart.getD t) t (some (x.gap : Int)) (some (e.limits.maxGap : Int)) false]
   else [])
  ++ (if lost then [segmentReport .carriageLost h e t t t none none false] else [])
  ++ (if dead then
    [segmentReport .deadAir h e t (x.deadAirStart.getD t) t (some (x.deadAir : Int)) (e.limits.deadAir.map (fun (v : Nat) => (v : Int)))
      false]
   else [])

/-- The Caption Checker handles a notice of feed `f` under its effective segment (R44 to R54, R91). -/
def captionNotice (s : State) (f : Feed) (n : Notice) (h : Handle) (e : Segment) : State :=
  let r := readHistory (s.fiu.history.get f) n.tick
  let w := (s.cc.feeds.get f).watches h e n r
  let members := creditMember s.sg.table n.membership.level1
  let members := match n.membership.level2 with | some h2 => creditMember members h2 | none => members
  let table := tableUpdate members h.index
    (fun x => x.credited (judgeTick e r) w.2.1 w.1.gap w.2.2.1 w.2.2.2.2)
  ((s.withCc ⟨s.cc.feeds.set f w.1⟩).withSg { s.sg with table := table, noticeCc := s.sg.noticeCc.set f none }).sendReports
    (captionReports w.1 h e n.tick w.2.2.1 w.2.2.2.1 w.2.2.2.2)

/-- SETTLED_TICK_NOTICE_CC (R44): the waiting notice of the feed is handled. -/
def execSettledTickNoticeCc (f : Feed) (s : State) : Host.Outcome State Fault Refusal :=
  .next
    (match s.sg.noticeCc.get f with
     | none => s
     | some n =>
       let h := n.membership.level2.getD n.membership.level1
       match segmentAt s.sg.table h with
       | some e => captionNotice s f n h e
       | none => s.withSg { s.sg with noticeCc := s.sg.noticeCc.set f none })

end Sys2Proof.Machine
end

