-- ==== Sys2Proof/Machine/Incidents.lean ====
section
/-!
DEFINITION. The Incident Unit (chapter 6): taking a report (R103, R107 to R112), the policy table (R104, R105), the log and its
cursors (R112 to R116), review (R117).
Meanings: INCIDENT_REPORT, POLICY_WRITE, POLICY_READ, INCIDENT_FETCH, INCIDENT_REVIEW.
-/

namespace Sys2Proof.Machine

/-! ## Policy -/

/-- The policy entry of a kind (R104). -/
def Iu.policyOf (x : Iu) (k : IncidentKind) : PolicyEntry := x.policy.getD k.place ⟨.muted, 0, 0, false⟩

/-- A roll brought into its range (R105). -/
def rollInRange (b : BitVec 16) : Nat := (clampInt 0 600 b.toInt).toNat

/-- Whether a roll was in its range already (R105). -/
def rollKept (b : BitVec 16) : Bool := decide ((rollInRange b : Int) = b.toInt)

/-- The auto-hold setting of POLICY_WRITE: neither on nor off is refused (R105). -/
def autoHoldOf (b : Byte) : Option Bool := if b = 0 then some false else if b = 1 then some true else none

/-- The IU takes a POLICY_WRITE (R105). -/
def policyWriteTaken (a : PolicyWriteArgs) (s : State) : State × Reply :=
  match incidentKindOf a.kind, modeOf a.mode, autoHoldOf a.autoHold with
  | some k, some m, some h =>
    let e : PolicyEntry := ⟨m, rollInRange a.preRoll, rollInRange a.postRoll, h⟩
    (s.withIu { s.iu with policy := s.iu.policy.set k.place e },
      ⟨if rollKept a.preRoll && rollKept a.postRoll then .ok else .clamped, .byte k.place :: policyFields e⟩)
  | _, _, _ => refuse .badArgument s

/-- POLICY_WRITE (R105). -/
def execPolicyWrite (l : Link) (p : Payload PolicyWriteArgs) (s : State) : Host.Outcome State Fault Refusal :=
  .next (passRequest 33 l p s policyWriteTaken)

/-- The IU takes a POLICY_READ (R105). -/
def policyReadTaken (b : Byte) (s : State) : State × Reply :=
  match incidentKindOf b with
  | none => refuse .badArgument s
  | some k => (s, ⟨.ok, policyFields (s.iu.policyOf k)⟩)

/-- POLICY_READ (R105). -/
def execPolicyRead (l : Link) (p : Payload Byte) (s : State) : Host.Outcome State Fault Refusal :=
  .next (passRequest 8 l p s policyReadTaken)

/-! ## Raising -/

/-- The record that a full log discards (R112): the oldest REVIEWED one, otherwise the oldest. -/
def discardChoice (log : List Incident) : Option Incident :=
  match log.find? (·.reviewed) with
  | some r => some r
  | none => log.head?

/-- The Retention Unit after the discard of a record (R112, R130). -/
def Ru.afterDiscard (ru : Ru) (r : Incident) : Ru :=
  match r.holdIndex with
  | some i => ru.releaseOwned i (.incident r.serial)
  | none => ru

/-- The Incident Log after the discard of a record (R112). -/
def Iu.afterDiscard (x : Iu) (r : Incident) : Iu :=
  { x with
    log := x.log.filter (fun y => decide (y.serial ≠ r.serial))
    discardedOpen := if r.reviewed then x.discardedOpen else min (x.discardedOpen + 1) Config.count32Top }

/-- Room in the log for one record (R112). -/
def State.makeRoom (s : State) : State :=
  if s.iu.log.length < Config.logSize then s
  else
    match discardChoice s.iu.log with
    | some r => (s.withIu (s.iu.afterDiscard r)).withRu (s.ru.afterDiscard r)
    | none => s

/-- What the answer to an auto-hold request leaves in a record (R109). -/
structure HoldFields where
  outcome : HoldOutcome
  index : Option Nat
  range : Option (Nat × Nat)
  unheld : Bool
  deriving DecidableEq, Repr

/-- A refused auto-hold (R109). R125 says that it is one of four; WRONG_STATE stands for a fifth (log entry 37). -/
def refusedOutcome : Status → HoldOutcome
  | .notFound => .notFound
  | .quota => .quota
  | .full => .full
  | _ => .wrongState

/-- The hold fields of a new record (R109). -/
def Placement.holdFields : Placement → HoldFields
  | .refused st => ⟨refusedOutcome st, none, none, true⟩
  | .placed i h clamped => ⟨if clamped then .placedClamped else .placed, some i, some (h.first, h.last), false⟩

/-- The answer to the auto-hold request of a report over its evidence range (R108). -/
def autoHold (s : State) (p : PolicyEntry) (serial : Nat) (r : Report) : Placement :=
  judgePlacement s (.incident serial) (r.subjectFirst - p.preRoll) (r.subjectLast + p.postRoll) 0

/-- Whether a kind is reported by the Caption Checker (section 6.1). -/
def IncidentKind.ofCaptions : IncidentKind → Bool
  | .subtitleGap => true
  | .carriageLost => true
  | .deadAir => true
  | _ => false

/-- Whether a record names a segment marked SCHEDULE_UNCONFIRMED when its report is taken (R111). -/
def raisedUnconfirmed (table : List (Nat × Segment)) (r : Report) : Bool :=
  if r.kind.ofCaptions then
    match r.handle.bind (segmentAt table) with
    | some e => e.flags.scheduleUnconfirmed
    | none => false
  else r.unconfirmed

/-- A new record (R106). -/
def incidentOf (serial : Nat) (mode : Mode) (r : Report) (x : HoldFields) (unconfirmed : Bool) : Incident where
  serial := serial
  kind := r.kind
  mode := mode
  feed := r.feed
  handle := r.handle
  segmentId := r.segmentId
  segmentKind := r.segmentKind
  raiseTick := r.raiseTick
  subjectFirst := r.subjectFirst
  subjectLast := r.subjectLast
  measured := r.measured
  limit := r.limit
  outcome := x.outcome
  holdIndex := x.index
  holdRange := x.range
  unheld := x.unheld
  unconfirmed := unconfirmed
  reviewed := false

/-- The attention class of a record's mode (R110). -/
def Mode.attention : Mode → AttentionClass
  | .fault => .incident
  | _ => .warning

/-- A record is appended and its flag set on all links (R107, R110). -/
def State.appendIncident (s : State) (x : Incident) : State :=
  (s.withIu { s.iu with log := s.iu.log ++ [x], nextSerial := s.iu.nextSerial + 1 }).flagAll x.mode.attention

/-- An incident is raised: room, then the auto-hold, then the record (R103, R108 to R110). -/
def State.raiseIncident (s : State) (p : PolicyEntry) (r : Report) : State :=
  let y := s.makeRoom
  let u := raisedUnconfirmed y.sg.table r
  if p.autoHold then
    let a := autoHold y p y.iu.nextSerial r
    (y.withRu (y.ru.take a)).appendIncident (incidentOf y.iu.nextSerial p.mode r a.holdFields u)
  else y.appendIncident (incidentOf y.iu.nextSerial p.mode r ⟨.notRequested, none, none, false⟩ u)

/-- A report is handled to its end (R103). -/
def State.handleReport (s : State) (r : Report) : State :=
  let p := s.iu.policyOf r.kind
  match p.mode with
  | .muted => s
  | _ => s.raiseIncident p r

/-- INCIDENT_REPORT (R103): the waiting report number `n` is taken (R102: in any order, log entry 7). -/
def execIncidentReport (n : Nat) (s : State) : Host.Outcome State Fault Refusal :=
  .next
    (match s.iu.reports[n]? with
     | none => s
     | some r => (s.withIu { s.iu with reports := s.iu.reports.eraseIdx n }).handleReport r)

/-! ## Reading the log -/

/-- Every field of R106, in its order. -/
def incidentFields (x : Incident) : List Wire :=
  [.long x.serial, .byte x.kind.place, .byte x.mode.place]
    ++ optionalField (fun (f : Feed) => [.byte f.val]) x.feed
    ++ optionalField handleFields x.handle
    ++ optionalField (fun n => [.long n]) x.segmentId
    ++ optionalField (fun (k : NamedKind) => [.byte k.place]) x.segmentKind
    ++ [.tick x.raiseTick, .tick x.subjectFirst, .tick x.subjectLast]
    ++ optionalField (fun i => [.signedTick i]) x.measured
    ++ optionalField (fun i => [.signedTick i]) x.limit
    ++ [.byte x.outcome.place]
    ++ optionalField (fun n => [.byte n]) x.holdIndex
    ++ optionalField (fun (r : Nat × Nat) => [.tick r.1, .tick r.2]) x.holdRange
    ++ [.choice x.unheld, .choice x.unconfirmed, .byte x.reviewed.toNat]

/-- The retained records a fetch from cursor `k` returns (R115). -/
def fetched (log : List Incident) (k : Nat) : List Incident :=
  (log.filter (fun x => decide (k ≤ x.serial))).take Config.recordsPerFetch

/-- The cursor after a fetch (R115); `next` is the serial counter. -/
def cursorAfter (log : List Incident) (next k : Nat) : Nat :=
  match (fetched log k).getLast? with
  | some x => x.serial + 1
  | none => next

/-- Whether a retained record lies beyond the last one returned (R115). -/
def moreBeyond (log : List Incident) (k : Nat) : Bool :=
  match (fetched log k).getLast? with
  | some x => log.any (fun y => decide (x.serial < y.serial))
  | none => false

/-- The skipped count (R116). -/
def skippedCount (log : List Incident) (next k : Nat) : Nat := cursorAfter log next k - k - (fetched log k).length

/-- A fetch from cursor `k` (R115). -/
def fetchFrom (s : State) (l : Link) (k : Nat) : State × Reply :=
  (s.withIu { s.iu with cursors := s.iu.cursors.set l (cursorAfter s.iu.log s.iu.nextSerial k) },
    ⟨.ok,
      listed incidentFields (fetched s.iu.log k)
        ++ [.long (skippedCount s.iu.log s.iu.nextSerial k), .long (cursorAfter s.iu.log s.iu.nextSerial k),
            .choice (moreBeyond s.iu.log k), .long (s.iu.nextSerial - 1), .long s.iu.discardedOpen]⟩)

/-- The IU takes an INCIDENT_FETCH (R115). -/
def incidentFetchTaken (l : Link) (start : Option (BitVec 32)) (s : State) : State × Reply :=
  match start with
  | none => fetchFrom s l (s.iu.cursors.get l)
  | some b => if b = 0 ∨ s.iu.nextSerial < b.toNat then refuse .badArgument s else fetchFrom s l b.toNat

/-- INCIDENT_FETCH (R115). -/
def execIncidentFetch (l : Link) (p : Payload (Option (BitVec 32))) (s : State) : Host.Outcome State Fault Refusal :=
  .next (passRequest 5 l p s (incidentFetchTaken l))

/-! ## Review -/

/-- A record whose hold is gone (R113, R117). -/
def Incident.unhold (x : Incident) : Incident := { x with holdIndex := none, unheld := true }

/-- The record of a serial in the log changed in place. -/
def Iu.updateRecord (x : Iu) (n : Nat) (g : Incident → Incident) : Iu :=
  { x with log := x.log.map (fun y => if y.serial = n then g y else y) }

/-- The review of an OPEN record (R117). -/
def reviewOpen (s : State) (x : Incident) (release : Bool) : State × Reply :=
  match release, x.holdIndex with
  | true, some i =>
    let y := { x.unhold with reviewed := true }
    ((s.withIu (s.iu.updateRecord x.serial (fun _ => y))).withRu (s.ru.releaseOwned i (.incident x.serial)),
      ⟨.ok, incidentFields y⟩)
  | _, _ =>
    let y := { x with reviewed := true }
    (s.withIu (s.iu.updateRecord x.serial (fun _ => y)), ⟨.ok, incidentFields y⟩)

/-- The IU takes an INCIDENT_REVIEW (R117). -/
def incidentReviewTaken (a : IncidentReviewArgs) (s : State) : State × Reply :=
  if a.serial = 0 ∨ s.iu.nextSerial ≤ a.serial.toNat then refuse .badArgument s
  else
    match choiceOf a.release, s.iu.log.find? (fun x => x.serial = a.serial.toNat) with
    | none, _ => refuse .badArgument s
    | some _, none => refuse .notFound s
    | some release, some x => if x.reviewed then (s, ⟨.ok, incidentFields x⟩) else reviewOpen s x release

/-- INCIDENT_REVIEW (R117). -/
def execIncidentReview (l : Link) (p : Payload IncidentReviewArgs) (s : State) : Host.Outcome State Fault Refusal :=
  .next (passRequest 38 l p s incidentReviewTaken)

end Sys2Proof.Machine
end

