-- ==== Sys2Proof/Machine/Export.lean ====
section
/-!
DEFINITION. The Export Unit (chapter 10): lookup (R181), records on the port (R182, R183), stall (R184), starting, aborting and ending jobs (R179, R180, R185 to R187);
and the steps in which the Archive Bus and the Export Unit meet: an access that ends in TIMEOUT (R165) and ARCHIVE_RESET (R163).
Meanings: EXPORT_START, EXPORT_READ_GRANT, EXPORT_READ_COMPLETION, EXPORT_STROBE, EXPORT_STALL, EXPORT_ABORT, ACCESS_TIMEOUT, ARCHIVE_RESET.
-/

namespace Sys2Proof.Machine

/-! ## Records on the port -/

/-- The flag byte of a record header (R182). -/
def Buffered.flagByte : Buffered → Nat
  | .absent => 8
  | .unavailable => 1 + 4
  | .chunk .timeout _ => 1 + 4
  | .chunk .damaged _ => 1 + 2
  | .chunk .clean _ => 1
  | .chunk .corrected _ => 1

/-- The payload of a record (R182). -/
def Buffered.payload : Buffered → List Byte
  | .absent => []
  | .unavailable => []
  | .chunk .timeout _ => []
  | .chunk _ ws => (ws.map bytesOfWord).flatten

/-- The bytes of a record (chapter 10, "Export record header layout"). -/
def recordBytes (j : Job) (f : Feed) (b : Buffered) : List Byte :=
  beBytes 4 j.number ++ beBytes 6 j.tick ++ beBytes 1 f.val ++ beBytes 1 b.flagByte ++ beBytes 2 b.payload.length
    ++ beBytes 2 (j.sent % 65536) ++ b.payload

/-- Port words from bytes: the first byte of a pair on XD bits 15 to 8 (R183). -/
def portWords : List Byte → List (BitVec 16)
  | a :: b :: rest => (a ++ b) :: portWords rest
  | [a] => [a ++ (0 : Byte)]
  | [] => []

/-- A job's counts after a record is sent (R182). -/
def Job.countRecord (j : Job) (b : Buffered) : Job :=
  { j with
    sent := j.sent + 1
    damaged := j.damaged + (b.flagByte / 2 % 2)
    unavailable := j.unavailable + (b.flagByte / 4 % 2)
    absent := j.absent + (b.flagByte / 8 % 2) }

/-- The first record of a tick buffer is placed on the port: its first word waits on XD (R183). -/
def Xu.place (x : Xu) (j : Job) : List (Feed × Buffered) → Xu
  | [] => { x with jobs := j :: x.jobs.tail, buffer := [], unsent := [] }
  | (f, b) :: rest =>
    let ws := portWords (recordBytes j f b)
    { x with
      jobs := { j with feed := some f } :: x.jobs.tail
      buffer := (f, b) :: rest
      unsent := ws
      xd := ws.headD x.xd }

/-- The active job enters SENDING with a tick buffer (R181, R182). -/
def State.enterSending (s : State) (j : Job) (buffer : List (Feed × Buffered)) : State :=
  s.withXu (s.xu.place { j with phase := .sending } buffer)

/-- The lookup of the active job at its tick (R181). -/
def State.lookup (s : State) (j : Job) : State :=
  match s.presence j.tick with
  | .absent => s.enterSending j (j.mask.map (fun f => (f, .absent)))
  | .unavailable _ => s.enterSending j (j.mask.map (fun f => (f, .unavailable)))
  | .available p =>
    (s.withXu { s.xu with jobs := { j with phase := .reading, feed := j.mask.head? } :: s.xu.jobs.tail }).withAc
      { s.ac with exportRequest := some ⟨j.tick, p, j.mask⟩ }

/-! ## Endings -/

/-- A job ends (R187): its pin is released, it leaves the queue, its link's last ending is written and its EXPORT flag set. -/
def State.endJob (s : State) (j : Job) (st : EndStatus) : State :=
  ((s.withRu (s.ru.releaseOwned j.pin (.job j.number))).withXu
    { s.xu with
      jobs := s.xu.jobs.filter (fun x => decide (x.number ≠ j.number))
      endings := s.xu.endings.set j.link (some ⟨j.number, st, j.sent, j.damaged, j.unavailable, j.absent⟩) }).flagOn
    j.link .exports

/-- The port has no word waiting and the tick buffer is empty; the stall timer stands at 0 when a job has ended (R187; with no job behind it DESIGN CHOICE, log entry 53). XD stays: the last word taken (R183), or after a
stall the word that was not (DESIGN CHOICE, log entry 54). -/
def Xu.idle (x : Xu) : Xu := { x with buffer := [], unsent := [], stallTimer := 0 }

/-- The head of the queue becomes active at LOOKUP (R178, R187). -/
def State.activate (s : State) : State :=
  match s.xu.jobs with
  | [] => s
  | j :: _ => s.lookup { j with phase := .lookup, tick := j.first, feed := j.mask.head? }

/-- The active job ends, and the next becomes active (R187). -/
def State.endActive (s : State) (j : Job) (st : EndStatus) : State :=
  let y := s.endJob j st
  (y.withXu y.xu.idle).activate

/-- How a job that is stalled ends: ABORTED once ARCHIVE_RESET has marked it ENDING (R184, R186). -/
def stallStatus (j : Job) : EndStatus :=
  match j.phase with
  | .ending => .aborted
  | _ => .stalled

/-- Whether a stall is due: the timer stands at 50 and a word waits (R184, log entry 4). -/
def Xu.stallDue (x : Xu) : Bool := decide (Config.stallTicks ≤ x.stallTimer) && !x.unsent.isEmpty

/-- The active job ends STALLED (R184, R186). -/
def State.stall (s : State) : State :=
  match s.xu.jobs with
  | [] => s
  | j :: _ => s.endActive j (stallStatus j)

/-- A stall that is due is taken before what follows. Which commands call it, and that the others, those that read the Hold Table among them, still see the pin of the stalled job, is the model's choice (DESIGN CHOICE, log
entry 4). -/
def State.stallFirst (s : State) : State := if s.xu.stallDue then s.stall else s

/-- EXPORT_STALL (R184): the stall the last tick close brought about. -/
def execExportStall (s : State) : Host.Outcome State Fault Refusal :=
  .next (if s.xu.stallDue then s.stall else s)

/-- The stall timer at a tick close that finds XBSY as given (R184). With no word waiting it stands (DESIGN CHOICE, log entry 53). -/
def Xu.timerAtClose (x : Xu) (xbsy : Bool) : Xu :=
  if x.unsent.isEmpty then x
  else { x with stallTimer := if xbsy then min (x.stallTimer + 1) Config.stallTicks else 0 }

/-! ## Strobes -/

/-- The record under way is complete (R182, R185, R186). -/
def recordDone (s : State) (j : Job) (b : Buffered) (rest : List (Feed × Buffered)) : State :=
  let k := j.countRecord b
  let y := s.withXu { s.xu with jobs := k :: s.xu.jobs.tail, buffer := rest, unsent := [] }
  if j.abort ∨ j.phase = .ending then y.endActive k .aborted
  else
    match rest with
    | _ :: _ => y.withXu (y.xu.place k rest)
    | [] => if j.tick = j.last then y.endActive k .done else y.lookup { k with tick := j.tick + 1, phase := .lookup }

/-- The waiting word is strobed (R183). -/
def strobe (s : State) (rest : List (BitVec 16)) : State :=
  let y := s.withXu { s.xu with unsent := rest, stallTimer := 0 }
  match rest with
  | w :: _ => y.withXu { y.xu with xd := w }
  | [] =>
    match s.xu.jobs, s.xu.buffer with
    | j :: _, (_, b) :: more => recordDone y j b more
    | _, _ => y

/-- EXPORT_STROBE (R183): a word waits and its job is not stalled (R184). -/
def execExportStrobe (s : State) : Host.Outcome State Fault Refusal :=
  .next
    (match s.xu.unsent with
     | [] => s
     | _ :: rest => if s.xu.stallDue then s else strobe s rest)

/-! ## Export reads -/

/-- The read outcome of a chunk all of whose words were received (R175). -/
def outcomeOf (ws : List WordRead) : ReadOutcome :=
  if ws.any (fun w => decide (w.outcome = .uncorrectable)) then .damaged
  else if ws.any (fun w => decide (w.outcome = .corrected)) then .corrected
  else .clean

/-- What a read delivered of a chunk: TIMEOUT unless all its words were received (R175). -/
def bufferedChunk (rs : List (Nat × WordRead)) (f : Feed) : Buffered :=
  let ws := (rs.filter (fun r => decide (r.1 / Config.chunkWords = f.val))).map (·.2)
  if ws.length < Config.chunkWords then .chunk .timeout [] else .chunk (outcomeOf ws) (ws.map (·.data))

/-- The end of the active job's read reaches the Export Unit (R181, R185). -/
def State.deliver (s : State) (r : ReadRequest) (rs : List (Nat × WordRead)) : State :=
  match s.xu.jobs with
  | [] => s
  | j :: _ => if j.abort then s.endActive j .aborted else s.enterSending j (r.chunks.map (fun f => (f, bufferedChunk rs f)))

/-- An export read is granted, or dropped because its group has faulted (R181). -/
def grantExport (s : State) (r : ReadRequest) : State :=
  let y := s.withAc { s.ac with exportRequest := none }
  if s.ac.pageState r.page = .faulted then
    match y.xu.jobs with
    | [] => y
    | j :: _ => y.enterSending j (j.mask.map (fun f => (f, .unavailable)))
  else
    match s.ac.groupAt r.page with
    | some g => y.withAc (y.ac.start (.exportRead r) g r.page)
    | none => y

/-- EXPORT_READ_GRANT (R181): the bus is free and no record write waits (R164). -/
def execExportReadGrant (s : State) : Host.Outcome State Fault Refusal :=
  .next
    (match s.ac.access, s.rc.writes, s.ac.exportRequest with
     | none, [], some r => grantExport s r
     | _, _, _ => s)

/-- An export read ends with its words decoded: errors are counted, captured and listed, and the chunks delivered (R175). -/
def exportReadDone (s : State) (x : Access) (r : ReadRequest) (wrong : WrongLanes) : State :=
  let y := s.withAc { s.ac with access := none }
  if x.abandoned then y
  else
    let rs := s.ac.readWords x.group x.page (chunkOffsets r.chunks) wrong
    let ns := rs.map plainNote
    ((y.withAc (y.ac.noteRead x.group x.page .exportRead ns)).noteDamage r.page ns).deliver r rs

/-- EXPORT_READ_COMPLETION (R175). -/
def execExportReadCompletion (wrong : WrongLanes) (s : State) : Host.Outcome State Fault Refusal :=
  .next
    (match s.ac.access with
     | some x =>
       match x.kind with
       | .exportRead r => exportReadDone s x r wrong
       | _ => s
     | none => s)

/-! ## EXPORT_START and EXPORT_ABORT -/

/-- The first present tick from `a` to `b` (R180). -/
def firstPresent (spans : List Span) (a b : Nat) : Option Nat :=
  spans.findSome? (fun x => if max a x.firstTick ≤ min b x.lastTick then some (max a x.firstTick) else none)

/-- The last present tick from `a` to `b` (R180). -/
def lastPresent (spans : List Span) (a b : Nat) : Option Nat :=
  spans.reverse.findSome? (fun x => if max a x.firstTick ≤ min b x.lastTick then some (min b x.lastTick) else none)

/-- A new job (R178, R179). -/
def newJob (n : Nat) (l : Link) (mask : List Feed) (first last pin : Nat) : Job where
  number := n
  link := l
  mask := mask
  first := first
  last := last
  pin := pin
  tick := first
  feed := mask.head?
  phase := .queued
  abort := false
  sent := 0
  damaged := 0
  unavailable := 0
  absent := 0

/-- The reply to an accepted job (R179). -/
def startReply (j : Job) (place : Nat) (clamped : Bool) : Reply :=
  ⟨if clamped then .clamped else .ok,
   [.long j.number, .tick j.first, .tick j.last, .byte j.pin, .byte place, .long ((j.last - j.first + 1) * j.mask.length)]⟩

/-- An accepted job is queued, and looked up at once when the queue was empty (R179, step 6). -/
def State.queueJob (s : State) (j : Job) : State :=
  let y := s.withXu { s.xu with jobs := s.xu.jobs ++ [j], counter := s.xu.counter + 1 }
  match s.xu.jobs with
  | [] => (y.withXu { y.xu with stallTimer := 0 }).activate
  | _ :: _ => y

/-- Steps 4 to 6 of R179 over the clamped range `a` to `b`. A FULL names the Export Queue (0) or the Hold Table (1) (log entry 20). -/
def pinAndQueue (s : State) (l : Link) (mask : List Feed) (a b : Nat) (clamped : Bool) : State × Reply :=
  if Config.exportQueueSize ≤ s.xu.jobs.length then (s, ⟨.full, [.byte 0]⟩)
  else
    match judgePlacement s (.job s.xu.counter) a b 0 with
    | .refused .full => (s, ⟨.full, [.byte 1]⟩)
    | .refused st => refuse st s
    | .placed i h c =>
      let j := newJob s.xu.counter l mask a b i
      ((s.withRu (s.ru.take (.placed i h c))).queueJob j, startReply j s.xu.jobs.length clamped)

/-- The XU takes an EXPORT_START (R179). -/
def exportStartTaken (l : Link) (x : ExportStartArgs) (s0 : State) : State × Reply :=
  let s := s0.stallFirst
  let a := x.first.toNat
  let b := x.last.toNat
  if maskFeeds x.mask = [] ∨ b < a then refuse .badArgument s
  else if s.ac.state ≠ .recording then refuse .wrongState s
  else
    match firstPresent s.rc.spans a b, lastPresent s.rc.spans a b with
    | some p, some q => pinAndQueue s l (maskFeeds x.mask) p q (decide (p ≠ a) || decide (q ≠ b))
    | _, _ => refuse .notFound s

/-- EXPORT_START (R179). -/
def execExportStart (l : Link) (p : Payload ExportStartArgs) (s : State) : Host.Outcome State Fault Refusal :=
  .next (passRequest 39 l p s (exportStartTaken l))

/-- The active job is marked for abort (R185). -/
def State.markAbort (s : State) (j : Job) : State := s.withXu { s.xu with jobs := { j with abort := true } :: s.xu.jobs.tail }

/-- The active job's read request is withdrawn. -/
def State.withdrawRead (s : State) : State := s.withAc { s.ac with exportRequest := none }

/-- The abort of the active job (R185). -/
def abortActive (s : State) (j : Job) : State :=
  if j.abort then s
  else
    match j.phase with
    | .ending => s
    | .sending => s.markAbort j
    | .reading => if s.ac.exportRequest.isSome then s.withdrawRead.endActive j .aborted else s.markAbort j
    | .lookup => s.endActive j .aborted
    | .queued => s.endActive j .aborted

/-- The XU takes an EXPORT_ABORT (R185). -/
def exportAbortTaken (b : BitVec 32) (s0 : State) : State × Reply :=
  let s := s0.stallFirst
  match s.xu.jobs with
  | [] => refuse .notFound s
  | j :: rest =>
    if j.number = b.toNat then (abortActive s j, ⟨.ok, []⟩)
    else
      match rest.find? (fun x => x.number = b.toNat) with
      | some k => (s.endJob k .aborted, ⟨.ok, []⟩)
      | none => refuse .notFound s

/-- EXPORT_ABORT (R185). -/
def execExportAbort (l : Link) (p : Payload (BitVec 32)) (s : State) : Host.Outcome State Fault Refusal :=
  .next (passRequest 40 l p s exportAbortTaken)

/-! ## An access that ends in TIMEOUT -/

/-- The offsets of the words an access transfers, in order. -/
def AccessKind.offsets : AccessKind → List Nat
  | .exportRead r => chunkOffsets r.chunks
  | _ => pageOffsets

/-- The requester of an access (R169). -/
def AccessKind.requester : AccessKind → Requester
  | .record _ _ => .recordWrite
  | .exportRead _ => .exportRead
  | .scrub _ => .scrubRead
  | .testWrite => .test
  | .testRead => .test

/-- Words transferred before the timer expired: at least one was not (log entry 29). -/
def AccessKind.transferred (k : AccessKind) (words : Nat) : Nat := min words (k.offsets.length - 1)

/-- The words a write put into memory before its timeout (log entry 29). A scrub read that times out has written nothing back (log entry 47). -/
def Ac.writePart (ac : Ac) (x : Access) (n : Nat) : Ac :=
  match x.kind with
  | .record w _ => ac.writeWords x.group x.page n (wordsOfBytes Config.pageWords w.bytes)
  | .testWrite => ac.writeWords x.group x.page n (testPage x.page)
  | _ => ac

/-- The notes of the words a read received before its timeout. -/
def partNotes (x : Access) (rs : List (Nat × WordRead)) : List Note :=
  match x.kind with
  | .exportRead _ => rs.map plainNote
  | .scrub _ => rs.map plainNote
  | .testRead => rs.map (testNote x.page)
  | _ => []

/-- The archive page of an access whose damage is listed (R171): an export or scrub read. -/
def AccessKind.readPage : AccessKind → Option Nat
  | .exportRead r => some r.page
  | .scrub r => some r.page
  | _ => none

/-- Damage found before a timeout (R171). -/
def State.notePartDamage (s : State) (x : Access) (ns : List Note) : State :=
  match x.kind.readPage with
  | some p => s.noteDamage p ns
  | none => s

/-- The group of a timed-out access: FAULTED while RECORDING, its mark set while TESTING (R165). -/
def State.timeoutGroup (s : State) (g : Group) : State :=
  match s.ac.state with
  | .recording => s.faultGroup g
  | .testing => s.withAc (s.ac.markFault g)
  | _ => s

/-- The requester is told that its access ended in TIMEOUT (R165). -/
def State.tellTimeout (s : State) (x : Access) (rs : List (Nat × WordRead)) : State :=
  match x.kind with
  | .record w _ => s.writeTimedOut w
  | .exportRead r => s.deliver r rs
  | .scrub _ => s
  | .testWrite => match s.ac.test with | some t => s.testAdvance t true | none => s
  | .testRead => match s.ac.test with | some t => s.testAdvance t true | none => s

/-- The access in progress ends in TIMEOUT after `n` words (R165): what was transferred, then the capture, then the group, then the
requester. An abandoned one does none of this but what it wrote (R163). -/
def timeoutAccess (s : State) (x : Access) (n : Nat) (wrong : WrongLanes) : State :=
  let y := s.withAc { (s.ac.writePart x n) with access := none }
  if x.abandoned then y
  else
    let rs := s.ac.readWords x.group x.page (x.kind.offsets.take n) wrong
    let ns := partNotes x rs
    let capture : Capture := ⟨x.group, x.page, x.kind.offsets.getD n 0, 0, .timeout, x.kind.requester⟩
    let z := y.withAc ((y.ac.noteRead x.group x.page x.kind.requester ns).captured (some capture))
    (((z.notePartDamage x ns).timeoutGroup x.group).tellTimeout x rs)

/-- ACCESS_TIMEOUT (R165) after `words` words were transferred. -/
def execAccessTimeout (words : Nat) (wrong : WrongLanes) (s : State) : Host.Outcome State Fault Refusal :=
  .next
    (match s.ac.access with
     | some x => timeoutAccess s x (x.kind.transferred words) wrong
     | none => s)

/-! ## ARCHIVE_RESET -/

/-- Every mapped group UNTESTED and every fault mark cleared (R163). -/
def Ac.resetGroups (ac : Ac) : Quad GroupRecord := ac.untested.map (fun x => { x with faultMark := false })

/-- The AC after an accepted ARCHIVE_RESET (R163). -/
def Ac.archiveReset (ac : Ac) : Ac :=
  { ac with
    state := .mapped
    groups := ac.resetGroups
    test := none
    damaged := []
    scrub := none
    access := ac.access.map (fun x => { x with abandoned := true })
    exportRequest := none
    scrubRequest := none
    testRequest := false }

/-- The RC after an accepted ARCHIVE_RESET (R154). -/
def Rc.archiveReset (rc : Rc) : Rc := { rc with spans := [], writePos := 0, writes := [], stall := false, discarded := 0 }

/-- A record that loses its hold (R120). -/
def Incident.loseHold (x : Incident) : Incident := if x.holdIndex.isSome then x.unhold else x

/-- The IU after an accepted ARCHIVE_RESET (R120). -/
def Iu.archiveReset (x : Iu) : Iu := { x with log := x.log.map Incident.loseHold }

/-- Jobs end ABORTED one after the other, none becoming active between (R186). -/
def State.abortAll (s : State) (js : List Job) : State := js.foldl (fun y j => y.endJob j .aborted) s

/-- Whether the active job finishes its record after an ARCHIVE_RESET (R186). -/
def Job.finishes (j : Job) : Bool :=
  match j.phase with
  | .sending => true
  | .ending => true
  | _ => false

/-- The XU at an accepted ARCHIVE_RESET (R186): the active job ends first unless it is SENDING, then the queued ones in queue order. -/
def State.resetExports (s : State) : State :=
  match s.xu.jobs with
  | [] => s
  | j :: rest =>
    if j.finishes then (s.withXu { s.xu with jobs := { j with phase := .ending } :: rest }).abortAll rest
    else s.abortAll (j :: rest)

/-- The AC takes an ARCHIVE_RESET (R163), and with it the RU, RC, IU and XU (R120, R136, R154, R186). -/
def archiveResetTaken (_ : Unit) (s0 : State) : State × Reply :=
  let s := s0.stallFirst
  if s.ac.state = .unmapped then refuse .wrongState s
  else
    let y := (s.withRu { s.ru with holds := [] }).regroup s.ac.archiveReset
    let z := (y.withRc y.rc.archiveReset).withIu y.iu.archiveReset
    (z.resetExports.flagAll .archive,
      ⟨.ok,
       [.byte s.ac.state.place, .word s.rc.spans.length, .word s.ru.holds.length, .word s.xu.jobs.length]⟩)

/-- ARCHIVE_RESET (R163). -/
def execArchiveReset (l : Link) (p : Payload Unit) (s : State) : Host.Outcome State Fault Refusal :=
  .next (passRequest 46 l p s archiveResetTaken)

end Sys2Proof.Machine
end

