-- ==== Sys2Proof/Machine/Segments.lean ====
section
/-!
DEFINITION. The Segment Unit (chapter 5): opening and closing records (R80, R82, R89), applying boundaries (R83 to R88), membership (R90), verdicts
(R92 to R94), limit sets (R96, R97), and the reads SEGMENT_READ and SEGMENT_LIST (R98, R99).
Meanings: SETTLEMENT, VERDICT, LIMITS_WRITE, LIMITS_READ, SEGMENT_READ, SEGMENT_LIST.
-/

namespace Sys2Proof.Machine

/-! ## Records of a feed -/

/-- Whether a record is the OPEN level-1 record of a feed (R81). -/
def isOpenLevel1 (f : Feed) (r : Segment) : Bool :=
  decide (r.feed = f) && decide (r.state = .opened) && decide (r.kind ≠ .item)

/-- Whether a record is the OPEN ITEM of a feed (R81). -/
def isOpenItem (f : Feed) (r : Segment) : Bool :=
  decide (r.feed = f) && decide (r.state = .opened) && decide (r.kind = .item)

/-- Whether a record is the SUSPENDED PROGRAMME of a feed (R81). -/
def isSuspended (f : Feed) (r : Segment) : Bool := decide (r.feed = f) && decide (r.state = .suspended)

/-- The OPEN level-1 record of a feed with its slot. -/
def openLevel1 (table : List (Nat × Segment)) (f : Feed) : Option (Nat × Segment) := table.find? (fun e => isOpenLevel1 f e.2)

/-- The OPEN ITEM of a feed with its slot. -/
def openItem (table : List (Nat × Segment)) (f : Feed) : Option (Nat × Segment) := table.find? (fun e => isOpenItem f e.2)

/-- The SUSPENDED PROGRAMME of a feed with its slot. -/
def suspendedProgramme (table : List (Nat × Segment)) (f : Feed) : Option (Nat × Segment) :=
  table.find? (fun e => isSuspended f e.2)

/-- The handle of a listed record (R79). -/
def handleOf (e : Nat × Segment) : Handle := ⟨e.1, e.2.openTick⟩

/-! ## Opening a record -/

/-- The slot of the CLOSED record with verdict DONE and the smallest close sequence (R80). -/
def evictable (table : List (Nat × Segment)) : Option Nat :=
  (table.foldl (fun (best : Option (Nat × Nat)) e =>
    match e.2.verdict, e.2.closeSeq with
    | some .done, some q =>
      match best with
      | none => some (e.1, q)
      | some b => if q < b.2 then some (e.1, q) else some b
    | _, _ => best) none).map (·.1)

/-- A slot for a new record, and the table without a record evicted for it (R80). -/
def takeSlot (table : List (Nat × Segment)) : Option (Nat × List (Nat × Segment)) :=
  match tableFree table Config.segmentSlots with
  | some i => some (i, table)
  | none => (evictable table).map (fun i => (i, tableErase table i))

/-- What opens a record: the entry, or nothing for the UNSCHEDULED segment of a first settlement (R82, R84). -/
structure Opening where
  kind : SegmentKind
  segmentId : Option Nat
  limitIndex : Fin 8
  requirement : Requirement
  late : Bool
  enclosing : Option Handle
  deriving DecidableEq, Repr

/-- A new record (R82). -/
def newSegment (limits : Oct LimitSet) (f : Feed) (t : Nat) (o : Opening) : Segment where
  openTick := t
  feed := f
  kind := o.kind
  segmentId := o.segmentId
  state := .opened
  latestMember := none
  lastMember := none
  partCount := 1
  itemCount := 0
  orphanCount := 0
  enclosing := o.enclosing
  limitIndex := o.limitIndex.val
  limits := limits.get o.limitIndex
  requirement := o.requirement
  loudness := none
  memberTicks := 0
  speechTicks := 0
  coveredTicks := 0
  wrongTicks := 0
  gapCount := 0
  longestGap := 0
  coverage := none
  deadAirRuns := 0
  flags := ⟨false, false, false, false, false, false, o.late, false⟩
  verdict := none
  closeSeq := none
  cause := none

/-- The SG opens a record at the settlement of `t`, and the LM is told (R80, R82, R24); none when there is no slot. -/
def State.openSegment (s : State) (f : Feed) (t : Nat) (o : Opening) : Option State :=
  match takeSlot s.sg.table with
  | none => none
  | some (i, table) =>
    some ((s.withSg { s.sg with table := tablePut table i (newSegment s.sg.limits f t o) }).withLm
      (s.lm.opened f o.kind ⟨i, t⟩))

/-- An entry's limit set index as an index of the table; R69 lets no other through. -/
def entryLimit (e : Entry) : Fin 8 := Fin.ofNat 8 e.limitSet

/-- The UNSCHEDULED segment (R82: limit set LS0, requirement NONE). -/
def openUnscheduled (late : Bool) : Opening := ⟨.unscheduled, none, 0, .none, late, none⟩

/-- A PROGRAMME from an entry (R82). -/
def openProgramme (e : Entry) : Opening := ⟨.programme, some e.segmentId, entryLimit e, e.requirement, e.late, none⟩

/-- A BREAK from an entry: requirement NONE (R82). -/
def openBreak (e : Entry) : Opening := ⟨.adBreak, some e.segmentId, entryLimit e, .none, e.late, none⟩

/-- An ITEM from an entry, within its BREAK (R82). -/
def openItemFrom (e : Entry) (enclosing : Handle) : Opening :=
  ⟨.item, some e.segmentId, entryLimit e, e.requirement, e.late, some enclosing⟩

/-! ## Closing a record -/

/-- Coverage at the close (R56). -/
def coverageOf (r : Segment) : Option Nat :=
  if r.requirement = .none ∨ r.speechTicks = 0 then none else some (1000 * r.coveredTicks / r.speechTicks)

/-- A record at its close (R89). -/
def Segment.closeWith (r : Segment) (seq : Nat) (cause : AnnounceKind × Nat) (results : Option Loudness) : Segment :=
  { r with
    state := .closed
    lastMember := r.latestMember
    closeSeq := some seq
    cause := some cause
    verdict := some .pending
    loudness := results
    coverage := coverageOf r }

/-- The SG closes the record in a slot (R89); the LM takes the close and hands its results (R25). -/
def State.closeSegment (s : State) (e : Nat × Segment) (cause : AnnounceKind × Nat) : State :=
  let results := (s.lm.integratorOf e.2.feed e.2.kind).map Integrator.results
  (s.withSg
    { s.sg with
      table := tableUpdate s.sg.table e.1 (fun r => r.closeWith (s.sg.closeSeq + 1) cause results)
      closeSeq := s.sg.closeSeq + 1 }).withLm (s.lm.closed e.2.feed e.2.kind)

/-- The record found, if any, is closed. -/
def State.closeFound (s : State) (found : Option (Nat × Segment)) (cause : AnnounceKind × Nat) : State :=
  match found with
  | some e => s.closeSegment e cause
  | none => s

/-- The OPEN item, if any, closes. -/
def State.closeItem (s : State) (f : Feed) (cause : AnnounceKind × Nat) : State := s.closeFound (openItem s.sg.table f) cause

/-- The OPEN level-1 record closes. -/
def State.closeLevel1 (s : State) (f : Feed) (cause : AnnounceKind × Nat) : State :=
  s.closeFound (openLevel1 s.sg.table f) cause

/-- The SUSPENDED programme, if any, closes. -/
def State.closeSuspended (s : State) (f : Feed) (cause : AnnounceKind × Nat) : State :=
  s.closeFound (suspendedProgramme s.sg.table f) cause

/-- A record of the table changed in place. -/
def State.updateSegment (s : State) (i : Nat) (g : Segment → Segment) : State :=
  s.withSg { s.sg with table := tableUpdate s.sg.table i g }

/-! ## Applying boundaries -/

/-- A SUSPENDED programme is resumed by an entry (R85). -/
def Segment.resumed (r : Segment) (late : Bool) : Segment :=
  { r with
    state := .opened
    partCount := r.partCount + 1
    flags := { r.flags with lateStart := r.flags.lateStart || late } }

/-- The first settlement of a feed (R84). -/
def applyFirst (s : State) (f : Feed) (t : Nat) (e : Option Entry) : Option State :=
  match e with
  | none => s.openSegment f t (openUnscheduled false)
  | some e =>
    match e.kind with
    | .programme => s.openSegment f t (openProgramme e)
    | .adBreak => s.openSegment f t (openBreak e)
    | _ => s.openSegment f t (openUnscheduled false)

/-- A PROGRAMME entry (R85), with the OPEN level-1 record `cur`; the Boolean says that a programme was resumed. -/
def applyProgramme (s : State) (f : Feed) (t : Nat) (e : Entry) (cur : Nat × Segment) : Option (State × Bool) :=
  let cause := (AnnounceKind.programme, e.segmentId)
  if cur.2.kind = .programme ∧ cur.2.segmentId = some e.segmentId then some (s, false)
  else
    match suspendedProgramme s.sg.table f with
    | some p =>
      if p.2.segmentId = some e.segmentId then
        some (((s.closeItem f cause).closeLevel1 f cause).updateSegment p.1 (fun r => r.resumed e.late), true)
      else
        ((((s.closeItem f cause).closeLevel1 f cause).closeSuspended f cause).openSegment f t (openProgramme e)).map
          (fun s' => (s', false))
    | none => (((s.closeItem f cause).closeLevel1 f cause).openSegment f t (openProgramme e)).map (fun s' => (s', false))

/-- A BREAK entry (R86), with the OPEN level-1 record `cur`. -/
def applyBreak (s : State) (f : Feed) (t : Nat) (e : Entry) (cur : Nat × Segment) : Option State :=
  let cause := (AnnounceKind.adBreak, e.segmentId)
  let s1 := s.closeItem f cause
  let s2 :=
    if cur.2.kind = .programme then s1.updateSegment cur.1 (fun r => { r with state := .suspended })
    else s1.closeLevel1 f cause
  s2.openSegment f t (openBreak e)

/-- An END entry (R87). -/
def applyEnd (s : State) (f : Feed) (t : Nat) (e : Entry) : Option State :=
  let cause := (AnnounceKind.ending, e.segmentId)
  (((s.closeItem f cause).closeLevel1 f cause).closeSuspended f cause).openSegment f t (openUnscheduled e.late)

/-- The level-1 step of a settlement (R83 to R87); the Boolean says that a programme was resumed. -/
def applyLevel1 (s : State) (f : Feed) (t : Nat) (e : Option Entry) : Option (State × Bool) :=
  match openLevel1 s.sg.table f with
  | none => (applyFirst s f t e).map (fun s' => (s', false))
  | some cur =>
    match e with
    | none => some (s, false)
    | some e =>
      match e.kind with
      | .programme => applyProgramme s f t e cur
      | .adBreak => (applyBreak s f t e cur).map (fun s' => (s', false))
      | .ending => (applyEnd s f t e).map (fun s' => (s', false))
      | _ => some (s, false)

/-- An ITEM entry (R88), with the OPEN level-1 record `cur`. -/
def applyItem (s : State) (f : Feed) (t : Nat) (e : Entry) (cur : Nat × Segment) : Option State :=
  if cur.2.kind = .adBreak then
    ((s.closeItem f (AnnounceKind.item, e.segmentId)).openSegment f t (openItemFrom e (handleOf cur))).map
      (fun s' => s'.updateSegment cur.1 (fun r => { r with itemCount := r.itemCount + 1 }))
  else some (s.updateSegment cur.1 (fun r => { r with orphanCount := r.orphanCount + 1 }))

/-- The level-2 step of a settlement (R88). -/
def applyLevel2 (s : State) (f : Feed) (t : Nat) (e : Option Entry) : Option State :=
  match e, openLevel1 s.sg.table f with
  | none, _ => some s
  | some _, none => some s
  | some e, some cur =>
    match e.kind with
    | .item => applyItem s f t e cur
    | .itemEnd => some (s.closeItem f (AnnounceKind.itemEnd, e.segmentId))
    | _ => some s

/-! ## Membership -/

/-- The level of an announcement kind (section 4.4). -/
def AnnounceKind.level : AnnounceKind → Nat
  | .programme => 1
  | .adBreak => 1
  | .ending => 1
  | .item => 2
  | .itemEnd => 2

/-- The entry of a level among the handed-over entries of a tick. -/
def entryOfLevel (es : List Entry) (n : Nat) : Option Entry := es.find? (fun e => e.kind.level = n)

/-- The membership of tick `t` (R90), with the OPEN level-1 record and the OPEN ITEM. -/
def membershipAt (t : Nat) (resumed : Bool) (l1 : Nat × Segment) (it : Option (Nat × Segment)) : Membership where
  level1 := handleOf l1
  level2 := it.map handleOf
  partStart := decide (l1.2.openTick = t) || resumed
  itemStart := match it with | some i => decide (i.2.openTick = t) | none => false

/-- The tick record of `t` takes its membership (R12, R90). -/
def settleRecord (h : List TickRecord) (t : Nat) (m : Membership) : List TickRecord :=
  h.map (fun r => if r.tick = t then { r with membership := some m } else r)

/-- F: the newest tick that every feed has settled (R9). -/
def frontierOf (x : Oct (Option Nat)) : Option Nat :=
  x.toList.foldl (fun a b => match a, b with | some m, some n => some (min m n) | _, _ => none) x.e0

/-- The membership of `t` is written and the notices are sent (R9, R13, R90); `inbox` is what remains to be settled on the feed. -/
def resolveMembership (s : State) (f : Feed) (t : Nat) (resumed : Bool) (rest : List HandedTick) (l1 : Nat × Segment) : State :=
  let it := openItem s.sg.table f
  let m := membershipAt t resumed l1 it
  let table1 := tableUpdate s.sg.table l1.1 (fun r => { r with latestMember := some t })
  let table2 := match it with | some i => tableUpdate table1 i.1 (fun r => { r with latestMember := some t }) | none => table1
  let settled := s.fiu.settledTo.set f (some t)
  (s.withSg
    { s.sg with
      table := table2
      inbox := s.sg.inbox.set f rest
      noticeLm := s.sg.noticeLm.set f (some ⟨t, m⟩)
      noticeCc := s.sg.noticeCc.set f (some ⟨t, m⟩) }).withFiu
    { s.fiu with
      history := s.fiu.history.update f (fun h => settleRecord h t m)
      settledTo := settled
      frontier := frontierOf settled }

/-- Whether a record was closed on a feed and is not yet judged (R93). -/
def awaitsVerdict (f : Feed) (r : Segment) : Bool := decide (r.feed = f) && decide (r.verdict = some .pending)

/-- Whether both notices of the last settled tick have been handled (R13). -/
def noticesHandled (s : State) (f : Feed) : Bool := (s.sg.noticeLm.get f).isNone && (s.sg.noticeCc.get f).isNone

/-- Whether the SG may begin the next settlement of a feed (R93). -/
def maySettle (s : State) (f : Feed) : Bool := noticesHandled s f && !(s.sg.table.any (fun e => awaitsVerdict f e.2))

/-- The settlement of a handed-over tick (R9): boundaries, then membership; none when a record finds no slot. -/
def settleTick (s : State) (f : Feed) (ht : HandedTick) (rest : List HandedTick) : Option State :=
  match applyLevel1 s f ht.tick (entryOfLevel ht.entries 1) with
  | none => none
  | some (s1, resumed) =>
    match applyLevel2 s1 f ht.tick (entryOfLevel ht.entries 2) with
    | none => none
    | some s2 => (openLevel1 s2.sg.table f).map (resolveMembership s2 f ht.tick resumed rest)

/-- SETTLEMENT (R9): the next handed-over tick of the feed is settled, once the notices and the verdicts of the previous one are done
(R93). A settlement that finds no slot is the fault `segmentTableExhausted` (log entry 31). -/
def execSettlement (f : Feed) (s : State) : Host.Outcome State Fault Refusal :=
  match s.sg.inbox.get f with
  | [] => .next s
  | ht :: rest =>
    if maySettle s f then
      match settleTick s f ht rest with
      | some s' => .next s'
      | none => .fault .segmentTableExhausted
    else .next s

/-! ## Verdicts -/

/-- The loudness checks of R92 on results handed at the close; an ITEM is never too quiet. -/
def loudnessFlags (r : Segment) (x : Loudness) (v : VerdictFlags) : VerdictFlags :=
  let v := { v with silent := x.silent }
  if x.active < r.limits.minBlocks then { v with tooShort := true }
  else
    match x.integrated with
    | none => v
    | some i =>
      { v with
        loudnessHigh := decide (r.limits.target + r.limits.toleranceAbove < i)
        loudnessLow := decide (r.kind ≠ .item) && decide (i < r.limits.target - r.limits.toleranceBelow) }

/-- Whether the short-term ceiling is exceeded (R93). -/
def aboveCeiling (r : Segment) (x : Loudness) : Bool :=
  match r.limits.ceiling, x.maxShortTerm with
  | some c, some m => decide (c < m)
  | _, _ => false

/-- Whether coverage is too low (R93). -/
def coverageLow (r : Segment) : Bool :=
  decide (r.requirement ≠ .none) && (match r.coverage with | some c => decide (c < r.limits.minCoverage) | none => false)

/-- The verdict of a closed record (R92, R93). -/
def judgeFlags (r : Segment) : VerdictFlags :=
  let v := match r.loudness with
    | some x => { loudnessFlags r x r.flags with shortTermHigh := aboveCeiling r x }
    | none => r.flags
  { v with coverageLow := coverageLow r }

/-- A judged record (R93). -/
def Segment.judged (r : Segment) : Segment := { r with flags := judgeFlags r, verdict := some .done }

/-- A verdict report of a judged record, at raise tick `t` (R94). -/
def verdictReport (k : IncidentKind) (t : Nat) (e : Nat × Segment) (measured limit : Option Int) : Report :=
  segmentReport k (handleOf e) e.2 t e.2.openTick (e.2.lastMember.getD e.2.openTick) measured limit e.2.flags.scheduleUnconfirmed

/-- The reports of a judged record, in the order of the table of R94. -/
def verdictReports (t : Nat) (e : Nat × Segment) : List Report :=
  let lim := e.2.limits
  let integrated := e.2.loudness.bind (·.integrated)
  (if e.2.flags.loudnessHigh then [verdictReport .loudnessHigh t e integrated (some (lim.target + lim.toleranceAbove))] else [])
  ++ (if e.2.flags.loudnessLow then [verdictReport .loudnessLow t e integrated (some (lim.target - lim.toleranceBelow))] else [])
  ++ (if e.2.flags.shortTermHigh then
    [verdictReport .shortTermHigh t e (e.2.loudness.bind (·.maxShortTerm)) lim.ceiling] else [])
  ++ (if e.2.flags.coverageLow then
    [verdictReport .coverageLow t e (e.2.coverage.map (fun (v : Nat) => (v : Int))) (some (lim.minCoverage : Int))] else [])

/-- One record is judged, its reports are sent, and SEGMENT is flagged when any flag is set (R93, R94). -/
def State.judgeRecord (s : State) (t : Nat) (e : Nat × Segment) : State :=
  let j := e.2.judged
  let s1 := (s.withSg { s.sg with table := tableUpdate s.sg.table e.1 (fun _ => j) }).sendReports (verdictReports t (e.1, j))
  if j.flags.any then s1.flagAll .segment else s1

/-- Records in close sequence order. -/
def insertBySeq (e : Nat × Segment) : List (Nat × Segment) → List (Nat × Segment)
  | [] => [e]
  | x :: xs => if e.2.closeSeq.getD 0 ≤ x.2.closeSeq.getD 0 then e :: x :: xs else x :: insertBySeq e xs

/-- Listed records sorted by close sequence. -/
def sortBySeq (es : List (Nat × Segment)) : List (Nat × Segment) := es.foldr insertBySeq []

/-- The records of a feed that await their verdict, in close sequence order (R93). -/
def toJudge (s : State) (f : Feed) : List (Nat × Segment) := sortBySeq (s.sg.table.filter (fun e => awaitsVerdict f e.2))

/-- VERDICT (R93): the records closed at the last settled tick of the feed are judged once both notices have been handled. -/
def execVerdict (f : Feed) (s : State) : Host.Outcome State Fault Refusal :=
  .next
    (if noticesHandled s f then
      (toJudge s f).foldl (fun x e => x.judgeRecord ((s.fiu.settledTo.get f).getD 0) e) s
    else s)

/-! ## Limit sets -/

/-- The SG takes a LIMITS_WRITE (R97). -/
def limitsWriteTaken (a : LimitsWriteArgs) (s : State) : State × Reply :=
  match limitIndexOf a.index with
  | none => refuse .badArgument s
  | some i =>
    (s.withSg { s.sg with limits := s.sg.limits.set i (limitsInForce a) },
      ⟨if limitsUnchanged a then .ok else .clamped, .byte i.val :: limitFields (limitsInForce a)⟩)

/-- LIMITS_WRITE (R97). -/
def execLimitsWrite (l : Link) (p : Payload LimitsWriteArgs) (s : State) : Host.Outcome State Fault Refusal :=
  .next (passRequest 32 l p s limitsWriteTaken)

/-- The SG takes a LIMITS_READ (R97). -/
def limitsReadTaken (b : Byte) (s : State) : State × Reply :=
  match limitIndexOf b with
  | none => refuse .badArgument s
  | some i => (s, ⟨.ok, limitFields (s.sg.limits.get i)⟩)

/-- LIMITS_READ (R97). -/
def execLimitsRead (l : Link) (p : Payload Byte) (s : State) : Host.Outcome State Fault Refusal :=
  .next (passRequest 7 l p s limitsReadTaken)

/-! ## Reading segments -/

/-- The loudness results a read shows (R30, R98): the handed results of a CLOSED record, otherwise those of the bound integrator, with
passing count and integrated level absent. -/
def shownLoudness (lm : Lm) (e : Nat × Segment) : Option (Nat × Nat × Option Nat × Int × Option Int × Option Int) :=
  match e.2.state with
  | .closed => e.2.loudness.map (fun x => (x.qualified, x.active, some x.passing, x.maxMomentary, x.maxShortTerm, x.integrated))
  | _ =>
    match lm.integratorOf e.2.feed e.2.kind with
    | some x =>
      if x.binding = some (handleOf e) then some (x.qualified, x.active, none, x.maxMomentary, x.maxShortTerm, none) else none
    | none => none

/-- The fields of loudness results. -/
def loudnessFields (x : Nat × Nat × Option Nat × Int × Option Int × Option Int) : List Wire :=
  [.long x.1, .long x.2.1] ++ optionalField (fun n => [.long n]) x.2.2.1 ++ [.signedWord x.2.2.2.1]
    ++ optionalField (fun i => [.signedWord i]) x.2.2.2.2.1 ++ optionalField (fun i => [.signedWord i]) x.2.2.2.2.2

/-- Every field of R79 for a record, in its order (R98). -/
def segmentFields (lm : Lm) (e : Nat × Segment) : List Wire :=
  let r := e.2
  [.byte e.1, .tick r.openTick, .byte r.feed.val, .byte r.kind.place]
    ++ optionalField (fun i => [.long i]) r.segmentId
    ++ [.byte r.state.place]
    ++ optionalField (fun t => [.tick t]) r.lastMember
    ++ optionalField (fun n => [.long n]) (if r.kind = .programme then some r.partCount else none)
    ++ optionalField (fun n => [.long n]) (if r.kind = .adBreak then some r.itemCount else none)
    ++ optionalField (fun n => [.long n])
        (if r.kind = .programme ∨ r.kind = .unscheduled then some r.orphanCount else none)
    ++ optionalField handleFields r.enclosing
    ++ .byte r.limitIndex :: limitFields r.limits
    ++ [.requirement r.requirement]
    ++ optionalField loudnessFields (shownLoudness lm e)
    ++ [.long r.memberTicks, .long r.speechTicks, .long r.coveredTicks, .long r.wrongTicks, .long r.gapCount, .long r.longestGap]
    ++ optionalField (fun (n : Nat) => [.signedWord n]) r.coverage
    ++ [.long r.deadAirRuns]
    ++ verdictFields r.flags
    ++ optionalField (fun (v : VerdictState) => [.byte v.place]) r.verdict
    ++ optionalField (fun n => [.tick n]) r.closeSeq
    ++ optionalField (fun (c : AnnounceKind × Nat) => [.byte c.1.place, .long c.2]) r.cause

/-- The SG takes a SEGMENT_READ (R98). -/
def segmentReadTaken (a : SegmentReadArgs) (s : State) : State × Reply :=
  if Config.segmentSlots ≤ a.slot.toNat then refuse .badArgument s
  else
    match tableGet s.sg.table a.slot.toNat with
    | none => refuse .notFound s
    | some r =>
      if a.openTick.isSome ∧ a.openTick.map BitVec.toNat ≠ some r.openTick then refuse .notFound s
      else (s, ⟨.ok, segmentFields s.lm (a.slot.toNat, r)⟩)

/-- SEGMENT_READ (R98). -/
def execSegmentRead (l : Link) (p : Payload SegmentReadArgs) (s : State) : Host.Outcome State Fault Refusal :=
  .next (passRequest 3 l p s segmentReadTaken)

/-- A summary of a record (R99). -/
def summaryFields (e : Nat × Segment) : List Wire :=
  handleFields (handleOf e) ++ [.byte e.2.feed.val, .byte e.2.kind.place]
    ++ optionalField (fun i => [.long i]) e.2.segmentId
    ++ [.byte e.2.state.place]
    ++ optionalField (fun n => [.tick n]) e.2.closeSeq
    ++ optionalField (fun (v : VerdictState) => [.byte v.place]) e.2.verdict
    ++ verdictFields e.2.flags

/-- The records of a feed that are not CLOSED, in the order of R99. -/
def activeOf (table : List (Nat × Segment)) (f : Feed) : List (Nat × Segment) :=
  (openLevel1 table f).toList ++ (suspendedProgramme table f).toList ++ (openItem table f).toList

/-- The ACTIVE selector: whole feeds while they fit, and the feed to resume at (R99). -/
def listActive (table : List (Nat × Segment)) : List Feed → List (Nat × Segment) → List (Nat × Segment) × Option Feed
  | [], acc => (acc, none)
  | f :: fs, acc =>
    if Config.summariesPerReply < (acc ++ activeOf table f).length then (acc, some f)
    else listActive table fs (acc ++ activeOf table f)

/-- The CLOSED records of a mask beyond a close sequence, in rising close sequence (R99). -/
def closedBeyond (table : List (Nat × Segment)) (mask : List Feed) (after : Nat) : List (Nat × Segment) :=
  sortBySeq (table.filter (fun e =>
    decide (e.2.feed ∈ mask) && decide (e.2.state = .closed) && (match e.2.closeSeq with | some q => decide (after < q) | none => false)))

/-- The CLOSED selector: up to 12 records before the first whose verdict is PENDING (R99). -/
def listClosed (es : List (Nat × Segment)) : List (Nat × Segment) :=
  (es.takeWhile (fun e => decide (e.2.verdict = some .done))).take Config.summariesPerReply

/-- The payload of a CLOSED SEGMENT_LIST (R99): the list, the close sequence reached, the more indication. -/
def closedListFields (table : List (Nat × Segment)) (mask : List Feed) (after : Nat) : List Wire :=
  let all := closedBeyond table mask after
  let shown := listClosed all
  listed summaryFields shown
    ++ [.tick ((shown.getLast?.bind (fun e => e.2.closeSeq)).getD after), .choice (decide (shown.length < all.length))]

/-- The SG takes a SEGMENT_LIST (R99); selector ACTIVE is 0 and CLOSED 1 (R197). An after value left out of a CLOSED selector is open
(log entry 16). -/
def segmentListTaken (a : SegmentListArgs) (s : State) : State × Reply :=
  let mask := maskFeeds a.mask
  if mask = [] then refuse .badArgument s
  else
    match a.selector.toNat with
    | 0 =>
      let r := listActive s.sg.table mask []
      (s, ⟨.ok, listed summaryFields r.1 ++ optionalField (fun (f : Feed) => [.byte f.val]) r.2⟩)
    | 1 => (s, ⟨.ok, closedListFields s.sg.table mask ((a.after.map BitVec.toNat).getD Config.absentAfter)⟩)
    | _ => refuse .badArgument s

/-- SEGMENT_LIST (R99). -/
def execSegmentList (l : Link) (p : Payload SegmentListArgs) (s : State) : Host.Outcome State Fault Refusal :=
  .next (passRequest 4 l p s segmentListTaken)

end Sys2Proof.Machine
end

