-- ==== Sys2Proof/Machine/Schedule.lean ====
section
/-!
DEFINITION. The Schedule Unit (chapter 4): the time anchor (R59, R60), TIME_SYNC and the time step (R61 to R63), ownership and heartbeat (R64 to R67), announcements
and the Pending Lists (R69 to R74), hand-over (R75).
Meanings: HEARTBEAT_LAPSE, SCHEDULE_CLAIM, SCHEDULE_YIELD, TIME_SYNC, ANNOUNCE, WITHDRAW, HEARTBEAT_SET.
-/

namespace Sys2Proof.Machine

/-! ## The time anchor -/

/-- The projected station time of a tick (R59). -/
def Anchor.project (a : Anchor) (t : Nat) : Nat :=
  (((a.time : Int) + Config.tickMs * ((t : Int) - a.tick)) % (Config.dayMs : Int)).toNat

/-- The day difference of two station times (R59): from -43,200,000 to +43,199,999. -/
def dayDifference (u v : Nat) : Int :=
  ((u : Int) - v + Config.dayMs / 2) % (Config.dayMs : Int) - (Config.dayMs / 2 : Nat)

/-- The integer nearest to d / 100, a halfway value to the smaller (R60). -/
def nearestTick (d : Int) : Int := (d + 49) / 100

/-- The tick a station time resolves to under an anchor, before the case of an undefined F (R60). -/
def Anchor.resolve (a : Anchor) (time : Nat) : Int := (a.tick : Int) + nearestTick (dayDifference time a.time)

/-- The tick a station time resolves to (R60): while F is undefined, at least the base tick. -/
def State.resolveTime (s : State) (a : Anchor) (time : Nat) : Int :=
  match s.fiu.frontier with
  | none => max (a.resolve time) s.fiu.baseTick
  | some _ => a.resolve time

/-! ## Ownership and heartbeat -/

/-- A report of the Schedule Unit that names no feed and no segment, at the newest closed tick (R62, R66). -/
def clockReport (k : IncidentKind) (c : Nat) (measured limit : Int) : Report where
  kind := k
  feed := none
  handle := none
  segmentId := none
  segmentKind := none
  raiseTick := c
  subjectFirst := c
  subjectLast := c
  measured := some measured
  limit := some limit
  unconfirmed := false

/-- A record that is OPEN or SUSPENDED is marked SCHEDULE_UNCONFIRMED (R66, R95). -/
def Segment.unconfirm (r : Segment) : Segment :=
  match r.state with
  | .closed => r
  | _ => { r with flags := { r.flags with scheduleUnconfirmed := true } }

/-- The heartbeat lapses (R66, R68, R95). -/
def State.lapse (s : State) : State :=
  (((s.withSu { s.su with owner := none, timer := 0, lapseDue := false }).withSg
    { s.sg with table := s.sg.table.map (fun e => (e.1, e.2.unconfirm)) }).sendReport
    (clockReport .scheduleLost s.raiseTickNow s.su.timer s.su.limit)).flagAll .schedule

/-- A lapse that is due is taken before what follows. Which commands call it, and that the others see the part before the lapse, is the model's choice (DESIGN CHOICE, log entry 4). -/
def State.lapseFirst (s : State) : State := if s.su.lapseDue then s.lapse else s

/-- HEARTBEAT_LAPSE (R66): the lapse the last tick close brought about. -/
def execHeartbeatLapse (s : State) : Host.Outcome State Fault Refusal :=
  .next (if s.su.lapseDue then s.lapse else s)

/-- The timer at a tick close (R66): it counts while the owner is a link, and at the limit the lapse is due. -/
def Su.timerAtClose (x : Su) : Su :=
  match x.owner with
  | none => x
  | some _ => { x with timer := x.timer + 1, lapseDue := decide (x.limit ≤ x.timer + 1) }

/-- The SU takes a SCHEDULE_CLAIM (R64). -/
def claimTaken (l : Link) (_ : Unit) (s : State) : State × Reply :=
  let x := s.lapseFirst
  match x.su.owner with
  | none => ((x.withSu { x.su with owner := some l, timer := 0 }).flagAll .schedule, ⟨.ok, [.byte l.val]⟩)
  | some o => (x, ⟨if o = l then .ok else .owned, [.byte o.val]⟩)

/-- SCHEDULE_CLAIM (R64). -/
def execScheduleClaim (l : Link) (p : Payload Unit) (s : State) : Host.Outcome State Fault Refusal :=
  .next (passRequest 16 l p s (claimTaken l))

/-- The SU takes a SCHEDULE_YIELD (R65). -/
def yieldTaken (l : Link) (_ : Unit) (s : State) : State × Reply :=
  let x := s.lapseFirst
  if x.su.owner = some l then
    ((x.withSu { x.su with owner := none, timer := 0 }).flagAll .schedule, ⟨.ok, []⟩)
  else refuse .notOwner x

/-- SCHEDULE_YIELD (R65). -/
def execScheduleYield (l : Link) (p : Payload Unit) (s : State) : Host.Outcome State Fault Refusal :=
  .next (passRequest 17 l p s (yieldTaken l))

/-- A heartbeat limit brought into its range (R67). -/
def limitInRange (b : BitVec 16) : Nat := (clampInt 20 600 b.toInt).toNat

/-- The SU takes a HEARTBEAT_SET (R67). -/
def heartbeatTaken (b : BitVec 16) (s : State) : State × Reply :=
  let x := s.lapseFirst
  (x.withSu { x.su with limit := limitInRange b },
    ⟨if (limitInRange b : Int) = b.toInt then .ok else .clamped, [.signedWord (limitInRange b)]⟩)

/-- HEARTBEAT_SET (R67). -/
def execHeartbeatSet (l : Link) (p : Payload (BitVec 16)) (s : State) : Host.Outcome State Fault Refusal :=
  .next (passRequest 35 l p s heartbeatTaken)

/-! ## Pending Lists -/

/-- Whether an entry has the level of another and stands at tick `t`. -/
def Entry.standsAt (e : Entry) (level t : Nat) : Bool := decide (e.kind.level = level) && decide (e.tick = t)

/-- Whether `e` comes before `x` in a list: by tick, level 1 before level 2 (R71). -/
def Entry.before (e x : Entry) : Bool :=
  decide (e.tick < x.tick) || (decide (e.tick = x.tick) && decide (e.kind.level < x.kind.level))

/-- An entry joins a list in its order (R71). -/
def insertEntry (e : Entry) : List Entry → List Entry
  | [] => [e]
  | x :: xs => if e.before x then e :: x :: xs else x :: insertEntry e xs

/-- A list put in order (R71). -/
def orderEntries (es : List Entry) : List Entry := es.foldl (fun acc e => insertEntry e acc) []

/-- Whether a list holds an entry that `e` replaces (R72). -/
def replaces (es : List Entry) (e : Entry) : Bool := es.any (fun x => x.standsAt e.kind.level e.tick)

/-- Whether a list overflows on `e` (R72). -/
def overflows (es : List Entry) (e : Entry) : Bool := !(replaces es e) && decide (Config.pendingListSize ≤ es.length)

/-- A list after `e` is committed: replaced in place, or inserted (R72). -/
def commitEntry (e : Entry) (es : List Entry) : List Entry :=
  if replaces es e then es.map (fun x => if x.standsAt e.kind.level e.tick then e else x) else insertEntry e es

/-! ## The time step -/

/-- An entry at its new tick: at or before the handed-over tick it is clamped and LATE (R63, step 1). -/
def Entry.restep (e : Entry) (h : Option Nat) (r : Int) : Entry :=
  match h with
  | some h => if r ≤ h then { e with tick := h + 1, late := true } else { e with tick := r.toNat }
  | none => { e with tick := r.toNat }

/-- Whether the step clamps a tick (R63, step 1). -/
def clampedBy (h : Option Nat) (r : Int) : Bool :=
  match h with
  | some h => decide (r ≤ h)
  | none => false

/-- Of entries of one level that share a tick after the step, the one that was later before it, which stands later in the list (R63, step 3). -/
def dropCollisions : List Entry → List Entry
  | [] => []
  | e :: es => if es.any (fun x => x.standsAt e.kind.level e.tick) then dropCollisions es else e :: dropCollisions es

/-- A Pending List after a time step (R63), with the tick each station time resolves to. -/
def stepEntries (h : Option Nat) (resolve : Nat → Int) (es : List Entry) : List Entry :=
  orderEntries (dropCollisions (es.map (fun e => e.restep h (resolve e.time))))

/-- Entries whose tick changed in a time step (R63). -/
def movedCount (h : Option Nat) (resolve : Nat → Int) (es : List Entry) : Nat :=
  (es.filter (fun e => decide ((e.restep h (resolve e.time)).tick ≠ e.tick))).length

/-- Entries clamped in a time step (R63). -/
def clampedCount (h : Option Nat) (resolve : Nat → Int) (es : List Entry) : Nat :=
  (es.filter (fun e => clampedBy h (resolve e.time))).length

/-- Entries discarded in a time step (R63). -/
def discardedCount (h : Option Nat) (resolve : Nat → Int) (es : List Entry) : Nat :=
  es.length - (stepEntries h resolve es).length

/-- A count over all feeds. -/
def overFeeds (g : List Entry → Nat) (x : Su) : Nat := (x.lists.toList.map g).sum

/-! ## TIME_SYNC -/

/-- The anchor steps to (c, time): every list is re-resolved and TIME_STEP is reported (R62, R63). -/
def timeStep (s : State) (c time : Nat) (offset : Int) : State × Reply :=
  let a : Anchor := ⟨c, time⟩
  let g := fun n => s.resolveTime a n
  ((s.withSu
      { s.su with anchor := some a, timer := 0, lists := s.su.lists.map (stepEntries s.su.handed g) }).sendReport
      (clockReport .timeStep c offset Config.stepLimitMs),
    ⟨.ok,
      [.byte 2, .signedTick offset, .word (overFeeds (movedCount s.su.handed g) s.su),
       .word (overFeeds (clampedCount s.su.handed g) s.su), .word (overFeeds (discardedCount s.su.handed g) s.su)]⟩)

/-- An accepted TIME_SYNC at closed tick `c` (R61, R62). The outcome's byte is 0 for set, 1 for kept, 2 for stepped, and that no entries moved stands as
three counts of 0 when the anchor is set (log entry 20). -/
def syncAccepted (s : State) (c time : Nat) : State × Reply :=
  match s.su.anchor with
  | none =>
    (s.withSu { s.su with anchor := some ⟨c, time⟩, timer := 0 }, ⟨.ok, [.byte 0, .signedTick 0, .word 0, .word 0, .word 0]⟩)
  | some a =>
    let offset := dayDifference time (a.project c)
    if offset.natAbs ≤ Config.stepLimitMs then (s.withSu { s.su with timer := 0 }, ⟨.ok, [.byte 1, .signedTick offset]⟩)
    else timeStep s c time offset

/-- The SU takes a TIME_SYNC (R61). -/
def timeSyncTaken (l : Link) (b : BitVec 32) (s : State) : State × Reply :=
  let x := s.lapseFirst
  if x.su.owner ≠ some l then refuse .notOwner x
  else if Config.dayMs ≤ b.toNat then refuse .badArgument x
  else
    match x.closedTick with
    | none => refuse .wrongState x
    | some c => syncAccepted x c b.toNat

/-- TIME_SYNC (R61). -/
def execTimeSync (l : Link) (p : Payload (BitVec 32)) (s : State) : Host.Outcome State Fault Refusal :=
  .next (passRequest 18 l p s (timeSyncTaken l))

/-! ## ANNOUNCE -/

/-- The checked fields of an announcement (R69). -/
structure Announcement where
  kind : AnnounceKind
  segmentId : Nat
  mask : List Feed
  time : Nat
  limitSet : Nat
  requirement : Requirement
  deriving DecidableEq, Repr

/-- Step 2 of R69: the fields, or none when one of them is refused. -/
def announcementOf (a : AnnounceArgs) : Option Announcement :=
  match announceKindOf a.kind, requirementOf a.requirement with
  | some k, some q =>
    if maskFeeds a.mask = [] ∨ Config.dayMs ≤ a.time.toNat ∨ 8 ≤ a.limitSet.toNat then none
    else some ⟨k, a.segmentId.toNat, maskFeeds a.mask, a.time.toNat, a.limitSet.toNat, q⟩
  | _, _ => none

/-- Whether an announcement that resolves to `r` is late (R70). -/
def isLate (h : Option Nat) (r : Int) : Bool := clampedBy h r

/-- The entry tick of an announcement that resolves to `r` (R70). -/
def entryTick (h : Option Nat) (r : Int) : Nat :=
  match h with
  | some h => if r ≤ h then h + 1 else r.toNat
  | none => r.toNat

/-- The entry an announcement places (R71, R72). -/
def Announcement.entry (x : Announcement) (h : Option Nat) (r : Int) : Entry :=
  ⟨x.kind, x.segmentId, x.limitSet, x.requirement, x.time, entryTick h r, isLate h r⟩

/-- The LATE_BOUNDARY report (R70). -/
def lateReport (x : Announcement) (h : Option Nat) (r : Int) : Report where
  kind := .lateBoundary
  feed := x.mask.head?
  handle := none
  segmentId := some x.segmentId
  segmentKind := some (.announcement x.kind)
  raiseTick := entryTick h r
  subjectFirst := entryTick h r
  subjectLast := entryTick h r
  measured := some ((entryTick h r : Int) - r)
  limit := none
  unconfirmed := false

/-- The resolved tick of an ANNOUNCE reply; before tick 0 it has no form in R197 (log entry 17). -/
def resolvedField (r : Int) : Wire := if 0 ≤ r then .tick r.toNat else .openTick (Config.tickBeforeZero r)

/-- The reply of a committed announcement (R72). -/
def announceReply (lists : Oct (List Entry)) (x : Announcement) (e : Entry) (r : Int) : Reply :=
  ⟨if e.late then .clamped
   else if x.mask.any (fun f => replaces (lists.get f) e) then .replaced
   else .ok,
   [.tick e.tick, resolvedField r, .choice e.late]
    ++ listed (fun f => [.byte (replaces (lists.get f) e).toNat]) x.mask⟩

/-- The lists after an announcement is committed to every feed of its mask (R72). -/
def commitAll (lists : Oct (List Entry)) (mask : List Feed) (e : Entry) : Oct (List Entry) :=
  Oct.tab (fun f => if f ∈ mask then commitEntry e (lists.get f) else lists.get f)

/-- An announcement that passed R69, resolved to `r` (R70, R72). Lateness is judged by the handed-over tick alone, also while F is undefined (DESIGN CHOICE, log entry 52). -/
def placeAnnouncement (s : State) (x : Announcement) (r : Int) : State × Reply :=
  let e := x.entry s.su.handed r
  if (s.retentionHorizon : Int) < r then refuse .tooFar s
  else
    match x.mask.find? (fun f => overflows (s.su.lists.get f) e) with
    | some f => (s, ⟨.full, [.byte f.val]⟩)
    | none =>
      let s1 := s.withSu { s.su with lists := commitAll s.su.lists x.mask e }
      (if e.late then s1.sendReport (lateReport x s.su.handed r) else s1, announceReply s.su.lists x e r)

/-- The SU takes an ANNOUNCE (R69). -/
def announceTaken (l : Link) (a : AnnounceArgs) (s : State) : State × Reply :=
  let y := s.lapseFirst
  if y.su.owner ≠ some l then refuse .notOwner y
  else
    match announcementOf a, y.su.anchor with
    | none, _ => refuse .badArgument y
    | some _, none => refuse .noTime y
    | some x, some an => placeAnnouncement y x (y.resolveTime an x.time)

/-- ANNOUNCE (R69). -/
def execAnnounce (l : Link) (p : Payload AnnounceArgs) (s : State) : Host.Outcome State Fault Refusal :=
  .next (passRequest 19 l p s (announceTaken l))

/-! ## WITHDRAW -/

/-- Whether an entry is the one a WITHDRAW names (R73). -/
def Entry.named (e : Entry) (n : Nat) (k : AnnounceKind) : Bool := decide (e.segmentId = n) && decide (e.kind = k)

/-- Entries a WITHDRAW removes from a list (R73). -/
def namedCount (n : Nat) (k : AnnounceKind) (es : List Entry) : Nat := (es.filter (fun e => e.named n k)).length

/-- The lists after a WITHDRAW (R73). -/
def withdrawAll (lists : Oct (List Entry)) (mask : List Feed) (n : Nat) (k : AnnounceKind) : Oct (List Entry) :=
  Oct.tab (fun f => if f ∈ mask then (lists.get f).filter (fun e => !(e.named n k)) else lists.get f)

/-- The SU takes a WITHDRAW from the owner of the schedule (R73). -/
def withdrawNamed (s : State) (mask : List Feed) (n : Nat) (k : AnnounceKind) : State × Reply :=
  let counts := mask.map (fun f => namedCount n k (s.su.lists.get f))
  if counts.sum = 0 then
    refuse (if (n, k) ∈ s.su.recent then .tooLate else .notFound) s
  else
    (s.withSu { s.su with lists := withdrawAll s.su.lists mask n k }, ⟨.ok, listed (fun (m : Nat) => [.word m]) counts⟩)

/-- The SU takes a WITHDRAW (R73). -/
def withdrawTaken (l : Link) (a : WithdrawArgs) (s : State) : State × Reply :=
  let x := s.lapseFirst
  if x.su.owner ≠ some l then refuse .notOwner x
  else
    match announceKindOf a.kind with
    | none => refuse .badArgument x
    | some k => if maskFeeds a.mask = [] then refuse .badArgument x else withdrawNamed x (maskFeeds a.mask) a.segmentId.toNat k

/-- WITHDRAW (R73). -/
def execWithdraw (l : Link) (p : Payload WithdrawArgs) (s : State) : Host.Outcome State Fault Refusal :=
  .next (passRequest 20 l p s (withdrawTaken l))

/-! ## Hand-over -/

/-- The last `n` of a list. -/
def lastOf (n : Nat) (xs : List α) : List α := xs.drop (xs.length - n)

/-- The entries of a list at tick `t`, level-1 first by R71. -/
def entriesAt (t : Nat) (es : List Entry) : List Entry := es.filter (fun e => decide (e.tick = t))

/-- The entries of a list at other ticks than `t`. -/
def entriesNotAt (t : Nat) (es : List Entry) : List Entry := es.filter (fun e => decide (e.tick ≠ t))

/-- The hand-over of tick `t` (R74, R75): feed by feed in feed order (log entry 26). -/
def State.handOver (s : State) (t : Nat) : State :=
  let taken := s.su.lists.map (entriesAt t)
  (s.withSu
    { s.su with
      lists := s.su.lists.map (entriesNotAt t)
      recent := lastOf Config.recentSize (s.su.recent ++ taken.toList.flatten.map (fun e => (e.segmentId, e.kind)))
      handed := some t }).withSg
    { s.sg with inbox := Oct.tab (fun f => s.sg.inbox.get f ++ [⟨t, taken.get f⟩]) }

end Sys2Proof.Machine
end

