-- ==== Sys2Proof/Machine/Ticks.lean ====
section
/-!
DEFINITION. The close of a tick (R8) and all that comes about in it: caption facts (R40 to R43), energies (R19, R20), the page (R137), feed settings (R3), the
hand-over (R75), the heartbeat timer (R66), the scrubber's choice (R173) and the stall timer (R184).
Meaning: TICK_CLOSE.
-/

namespace Sys2Proof.Machine

/-! ## The tick record -/

/-- The tick record of a closed tick of one feed (R8, R11, R19, R20, R43): its NO_INPUT mark is the broken mark. -/
def closedRecord (c : Nat) (broken : Bool) (t : Nat) (h : List TickRecord) (x : CaptionFeed) : TickRecord where
  tick := c
  noInput := broken
  tickEnergy := t
  blockEnergy := t + windowBefore h c 4
  shortTermEnergy := t + windowBefore h c 30
  shownAny := x.shownAny
  shownTags := x.shownTags
  stale := decide (x.state = .stale)
  carriage := x.carriage
  membership := none

/-- The tick energy of a feed at the close (R19). -/
def State.tickEnergy (s : State) (f : Feed) : Nat :=
  if s.fiu.broken.get f then 0 else tickEnergyOf (s.fiu.settings.get f).layout (s.lm.energies.get f)

/-- A history that takes a record; a full one first drops its oldest (R8, R11). -/
def appendRecord (h : List TickRecord) (r : TickRecord) : List TickRecord :=
  (if h.length < Config.historySize then h else h.drop 1) ++ [r]

/-- The records of tick `c` are made on every feed, unless `c` lies before the base tick (R8, R15). -/
def State.closeRecords (s : State) (c : Nat) : State :=
  if s.fiu.baseTick ≤ c then
    s.withFiu
      { s.fiu with
        history := Oct.tab (fun f => appendRecord (s.fiu.history.get f)
          (closedRecord c (s.fiu.broken.get f) (s.tickEnergy f) (s.fiu.history.get f) (s.cc.feeds.get f))) }
  else s

/-! ## The opening of the next tick -/

/-- The setting in force after the boundary (R3). -/
def settingAfter (x : FeedSetting) (pending : Option FeedSetting) : FeedSetting := pending.getD x

/-- The filter state after the boundary: zero when the layout changed (R3). -/
def filtersAfter (x : FeedSetting) (pending : Option FeedSetting) (zs : List ChannelFilter) : List ChannelFilter :=
  if (settingAfter x pending).layout = x.layout then zs else zeroFilters (settingAfter x pending).layout

/-- The next tick opens: settings apply, the broken marks, accumulators, gathering records, encoders and caption buffers start afresh
(R2, R3, R7, R18, R42, R138, R141). -/
def State.openTick (s : State) : State :=
  let settings := Oct.tab (fun f => settingAfter (s.fiu.settings.get f) (s.fiu.pendingSettings.get f))
  (((s.withFiu
      { s.fiu with
        openTick := s.fiu.openTick + 1
        periods := 0
        broken := Oct.fill false
        settings := settings
        pendingSettings := Oct.fill none
        filters := Oct.tab (fun f =>
          filtersAfter (s.fiu.settings.get f) (s.fiu.pendingSettings.get f) (s.fiu.filters.get f)) }).withLm
      { s.lm with energies := settings.map (fun x => List.replicate (slotsOf x.layout) 0) }).withCc
      ⟨s.cc.feeds.map CaptionFeed.gatherAfresh⟩).withRc s.rc.openTick

/-! ## The close -/

/-- The Caption Checker's work at the close of `c` (R40, R41). -/
def State.captionsAtClose (s : State) (c : Nat) : State := s.withCc ⟨s.cc.feeds.map (fun x => x.atClose c)⟩

/-- The hand-over of tick c - 80 when it is at or after the base tick (R9, R75). -/
def State.handOverAt (s : State) (c : Nat) : State :=
  if s.fiu.baseTick + Config.lateWindow ≤ c then s.handOver (c - Config.lateWindow) else s

/-- The close of the open tick (R8), with XBSY as the Export Unit finds it. A lapse or a stall that the previous close made due comes first
(log entry 4). -/
def closeTick (s0 : State) (xbsy : Bool) : State :=
  let s := s0.lapseFirst.stallFirst
  let c := s.fiu.openTick
  let y := ((((s.captionsAtClose c).closeRecords c).requestWrite c).openTick).handOverAt c
  let z := (y.withSu y.su.timerAtClose).scrubChoice
  z.withXu (z.xu.timerAtClose xbsy)

/-- TICK_CLOSE (R8): the 4,800th period of the open tick is complete (R7). -/
def execTickClose (xbsy : Bool) (s : State) : Host.Outcome State Fault Refusal :=
  .next (if s.fiu.periods = Config.periodsPerTick then closeTick s xbsy else s)

end Sys2Proof.Machine
end

