-- ==== Sys2Proof/Machine/Links.lean ====
section
/-!
DEFINITION. The Link Interface (chapter 11): judging a transaction (R190 to R192), the reply slot (R193, R194), STATUS (R198), attention (R199, R200).
Meanings: FRAME_ERROR, UNKNOWN_REQUEST, REPLY_ARRIVAL, FETCH, STATUS, ATTENTION_SET, ATTENTION_CLEAR.
-/

namespace Sys2Proof.Machine

/-! ## Frames -/

/-- The bytes of a frame with payload length `n` (R190). -/
def frameLength (n : Nat) : Nat := 4 + n

/-- Whether the CRC of a frame of `n` payload bytes is the one received (R191, R192). -/
def crcGood (bytes : List Byte) (n : Nat) : Bool :=
  decide ((bytes.drop (2 + n)).take 2 = beBytes 2 (crc16 (bytes.take (2 + n))).toNat)

/-- Whether the bytes of a transaction are a frame without error (R190, R191). For FETCH the frame is the first bytes of the transaction. -/
def frameGood (bytes : List Byte) : Bool :=
  match bytes with
  | kind :: len :: _ =>
    decide (len.toNat ≤ 248) && crcGood bytes len.toNat &&
      (if kind = 0 then decide (frameLength len.toNat ≤ bytes.length) else decide (bytes.length = frameLength len.toNat))
  | _ => false

/-- Whether a transaction is a frame error: a select period in which no byte is clocked is none (R190, R191, log entry 22). -/
def isFrameError (bytes : List Byte) : Bool := !bytes.isEmpty && !(frameGood bytes)

/-- Bytes clocked out after the frame of a FETCH that is a frame error while select is still held (R191). -/
def errorClocks (bytes : List Byte) : Nat :=
  match bytes with
  | kind :: len :: _ => if kind = 0 then bytes.length - frameLength len.toNat else 0
  | _ => 0

/-- The slot content a frame error leaves (R191). -/
def errorSlot (bytes : List Byte) : ReplySlot := .ready (bytes.headD 0) ⟨.frameError, []⟩

/-- A link after a frame error (R191): slot, LINK flag, and the bytes driven within a FETCH. -/
def LinkState.afterError (x : LinkState) (bytes : List Byte) : LinkState :=
  ({ x with slot := errorSlot bytes, dataOut := (slotFrame (errorSlot bytes)).take (errorClocks bytes) }).raise .link

/-- FRAME_ERROR (R191): the bytes of a transaction that is a frame error; any other transaction is another command. -/
def execFrameError (l : Link) (bytes : List Byte) (s : State) : Host.Outcome State Fault Refusal :=
  .next
    (if isFrameError bytes then
      s.received (s.withLi { s.li with links := s.li.links.update l (fun x => x.afterError bytes) })
    else s)

/-- UNKNOWN_REQUEST (R196, step 1): a good frame of a kind that is not in the request table. -/
def execUnknownRequest (l : Link) (kind : Byte) (payload : List Byte) (s : State) : Host.Outcome State Fault Refusal :=
  .next
    (if (requestRow kind.toNat).isNone ∧ payload.length ≤ 248 then s.received (s.withLi (s.li.answer l kind ⟨.unknown, []⟩)) else s)

/-! ## The reply slot -/

/-- The slot of a link when the reply to a request arrives (R193): it is taken only by the slot that waits on that request. -/
def ReplySlot.arrive (x : ReplySlot) (n : Nat) (r : Reply) : ReplySlot :=
  match x with
  | .waiting kind m => if m = n then .ready kind r else .waiting kind m
  | y => y

/-- REPLY_ARRIVAL (R193): reply number `n` of those on their way arrives at its link (log entry 7). -/
def execReplyArrival (n : Nat) (s : State) : Host.Outcome State Fault Refusal :=
  .next
    (match s.li.replies[n]? with
     | none => s
     | some r =>
       s.withLi
         { s.li with
           replies := s.li.replies.eraseIdx n
           links := s.li.links.update r.link (fun x => { x with slot := x.slot.arrive r.request r.reply }) })

/-- FETCH (R194): the slot's content is sent in the clocks that follow its frame; the slot does not change. -/
def execFetch (l : Link) (payload : List Byte) (clocked : Nat) (s : State) : Host.Outcome State Fault Refusal :=
  .next
    (if payload.length ≤ 248 then
      s.received
        (s.withLi { s.li with links := s.li.links.update l (fun x => { x with dataOut := (slotFrame x.slot).take clocked }) })
    else s)

/-! ## Attention -/

/-- The LI takes an ATTENTION_CLEAR (R199). -/
def attentionClearTaken (l : Link) (b : Byte) (s : State) : State × Reply :=
  let flags := (s.li.links.get l).flags.without (classesOf b)
  (s.withLi { s.li with links := s.li.links.update l (fun x => { x with flags := flags }) }, ⟨.ok, [.byte flags.toNat]⟩)

/-- ATTENTION_CLEAR (R199). -/
def execAttentionClear (l : Link) (p : Payload Byte) (s : State) : Host.Outcome State Fault Refusal :=
  .next (answerRequest 12 l p s (attentionClearTaken l))

/-- The LI takes an ATTENTION_SET (R200). -/
def attentionSetTaken (l : Link) (a : AttentionSetArgs) (s : State) : State × Reply :=
  match (attentionAction a.action).bind (fun v => attentionTarget a.target.toNat v (s.li.links.get l)) with
  | none => refuse .badArgument s
  | some x =>
    (s.withLi { s.li with links := s.li.links.set l x }, ⟨.ok, [.byte x.enables.toNat, .choice x.master]⟩)

/-- ATTENTION_SET (R200). -/
def execAttentionSet (l : Link) (p : Payload AttentionSetArgs) (s : State) : Host.Outcome State Fault Refusal :=
  .next (answerRequest 11 l p s (attentionSetTaken l))

/-! ## STATUS -/

/-- The LI's items for a link (R198). -/
def linkItems (s : State) (l : Link) : List Wire :=
  let x := s.li.links.get l
  [.byte l.val, .byte x.role.place, .byte x.flags.toNat, .byte x.enables.toNat, .choice x.master, .choice (s.li.alertLine l)]

/-- The FIU's items (R198). -/
def tickItems (s : State) : List Wire :=
  [.tick s.fiu.openTick] ++ optionalField (fun t => [.tick t]) s.closedTick ++ optionalField (fun t => [.tick t]) s.fiu.frontier

/-- The projected station time of c, or none (R68). -/
def projectedNow (s : State) : Option Nat :=
  match s.su.anchor, s.closedTick with
  | some a, some c => some (a.project c)
  | _, _ => none

/-- The SU's items (R68). VACANT is an absent owner (log entry 50), and the eight list lengths are a fixed run (log entry 48). -/
def scheduleItems (s : State) : List Wire :=
  optionalField (fun (l : Link) => [.byte l.val]) s.su.owner
    ++ optionalField (fun (a : Anchor) => [.tick a.tick, .long a.time]) s.su.anchor
    ++ optionalField (fun n => [.long n]) (projectedNow s)
    ++ [.signedWord s.su.limit]
    ++ optionalField (fun (_ : Link) => [.word s.su.timer]) s.su.owner
    ++ optionalField (fun t => [.tick t]) s.su.handed
    ++ s.su.lists.toList.map (fun es => .word es.length)
    ++ [.word s.su.recent.length]

/-- The SG's items (R99). -/
def segmentItems (s : State) : List Wire :=
  [.word s.sg.table.length, .word (s.sg.table.filter (fun e => decide (e.2.state ≠ .closed))).length,
   .word (s.sg.table.filter (fun e => decide (e.2.verdict = some .pending))).length, .tick s.sg.closeSeq]

/-- The IU's items (R113). -/
def incidentItems (s : State) : List Wire :=
  [.word s.iu.log.length, .word (s.iu.log.filter (fun x => !x.reviewed)).length, .long (s.iu.nextSerial - 1),
   .long s.iu.discardedOpen]

/-- The RU's items (R134). -/
def retentionItems (s : State) : List Wire :=
  [.word s.ru.holds.length, .long (committedSum s.ru.holds), .long s.ru.quota, .choice s.ru.overQuota]

/-- The RC's items (R151). -/
def recordingItems (s : State) : List Wire :=
  [.word s.rc.spans.length] ++ optionalField (fun t => [.tick t]) (oldestPresent s.rc.spans)
    ++ optionalField (fun t => [.tick t]) (newestPresent s.rc.spans) ++ [.choice s.rc.stall]

/-- The AC's items (R176). -/
def archiveItems (s : State) : List Wire :=
  [.byte s.ac.state.place, .word s.ac.healthyGroups, .word s.ac.faultedGroups, .word s.ac.damaged.length,
   .choice s.ac.capture.isSome]

/-- What STATUS shows of the active job (R188). -/
def activeJobFields (s : State) (j : Job) : List Wire :=
  [.long j.number, .byte j.link.val, .byte (maskValue j.mask), .tick j.first, .tick j.last, .byte j.pin, .byte j.phase.place,
   .tick j.tick, .byte (j.feed.getD 0).val, .choice j.abort, .long j.sent, .word s.xu.stallTimer]

/-- What STATUS shows of a queued job (R188). -/
def queuedJobFields (j : Job) : List Wire :=
  [.long j.number, .byte j.link.val, .byte (maskValue j.mask), .tick j.first, .tick j.last]

/-- A last ending (R187). -/
def endingFields (x : Ending) : List Wire :=
  [.long x.job, .byte x.status.place, .long x.sent, .long x.damaged, .long x.unavailable, .long x.absent]

/-- The XU's items (R188). The three last endings are a fixed run (log entry 48). -/
def exportItems (s : State) : List Wire :=
  [.word s.xu.jobs.length] ++ optionalField (activeJobFields s) s.xu.jobs.head? ++ listed queuedJobFields s.xu.jobs.tail
    ++ (s.xu.endings.toList.map (optionalField endingFields)).flatten

/-- The payload of STATUS (R198). -/
def statusFields (s : State) (l : Link) : List Wire :=
  linkItems s l ++ tickItems s ++ scheduleItems s ++ segmentItems s ++ incidentItems s ++ retentionItems s ++ recordingItems s
    ++ archiveItems s ++ exportItems s

/-- Every block takes its share of a STATUS (R198), at once (log entry 3). -/
def statusTaken (l : Link) (_ : Unit) (s : State) : State × Reply :=
  let x := s.lapseFirst.stallFirst
  (x, ⟨.ok, statusFields x l⟩)

/-- STATUS (R198). -/
def execStatus (l : Link) (p : Payload Unit) (s : State) : Host.Outcome State Fault Refusal :=
  .next (passRequest 1 l p s (statusTaken l))

end Sys2Proof.Machine
end

