-- ==== Sys2Proof/WellFormed.lean ====
section
/-!
DEFINITION. Commands that can be given to the part: what a command's type alone does not say. An ill-formed command is not a thing that the part's
surroundings can do; `exec` gives such a command no effect or reads of it only what is well formed (log entries 1 and 13).
-/

namespace Sys2Proof

/-- A kind byte of the request table (R195). -/
def kindListed (kind : Byte) : Bool :=
  decide (kind.toNat ≤ 12) || (decide (16 ≤ kind.toNat) && decide (kind.toNat ≤ 20))
    || (decide (32 ≤ kind.toNat) && decide (kind.toNat ≤ 47))

/-- A payload that a frame can carry (R190: a length of 0 to 248). -/
def payloadFits (payload : List Byte) : Bool := decide (payload.length ≤ 248)

/-- Wrong lanes are named once a word, and each word lies in a page. -/
def wrongLanesFit (wrong : WrongLanes) : Bool :=
  wrong.all (fun e => decide (e.1 < Config.pageWords)) && decide ((wrong.map (·.1)).Nodup)

/-- A packet's declared length is below 256: the size of that field is the model's choice, R5 gives only its range (log entry 44). -/
def packetFits (p : Packet) : Bool := decide (p.declared < 256)

/-- Well-formed commands. -/
def Instr.wellFormed : Instr → Bool
  | .powerOn _ => true
  | .resetPin _ => true
  | .wordClockPeriod _ => true
  | .laneLock _ => true
  | .captionPacket p => packetFits p
  | .tickClose _ => true
  | .captionStale _ => true
  | .carriageAbsent _ => true
  | .heartbeatLapse => true
  | .settlement _ => true
  | .settledTickNoticeLm _ => true
  | .settledTickNoticeCc _ => true
  | .verdict _ => true
  | .incidentReport _ => true
  | .recordWriteGrant => true
  | .recordWriteCompletion => true
  | .accessTimeout words wrong => decide (words < Config.pageWords) && wrongLanesFit wrong
  | .scrubReadGrant => true
  | .scrubReadCompletion wrong => wrongLanesFit wrong
  | .exportReadGrant => true
  | .exportReadCompletion wrong => wrongLanesFit wrong
  | .testAccessGrant => true
  | .testAccessCompletion wrong => wrongLanesFit wrong
  | .exportStrobe => true
  | .exportStall => true
  | .frameError _ bytes => !bytes.isEmpty
  | .unknownRequest _ kind payload => !(kindListed kind) && payloadFits payload
  | .replyArrival _ => true
  | .fetch _ payload _ => payloadFits payload
  | .status _ _ => true
  | .meter _ _ => true
  | .segmentRead _ _ => true
  | .segmentList _ _ => true
  | .incidentFetch _ _ => true
  | .holdList _ _ => true
  | .limitsRead _ _ => true
  | .policyRead _ _ => true
  | .archiveRead _ _ => true
  | .captureRead _ _ => true
  | .attentionSet _ _ => true
  | .attentionClear _ _ => true
  | .scheduleClaim _ _ => true
  | .scheduleYield _ _ => true
  | .timeSync _ _ => true
  | .announce _ _ => true
  | .withdraw _ _ => true
  | .limitsWrite _ _ => true
  | .policyWrite _ _ => true
  | .feedSet _ _ => true
  | .heartbeatSet _ _ => true
  | .holdPlace _ _ => true
  | .holdRelease _ _ => true
  | .incidentReview _ _ => true
  | .exportStart _ _ => true
  | .exportAbort _ _ => true
  | .captureClear _ _ => true
  | .measureRestart _ _ => true
  | .archiveMap _ groups => payloadFits groups
  | .archiveTest _ _ => true
  | .archiveRecord _ _ => true
  | .archiveReset _ _ => true
  | .spareLaneSet _ _ => true

end Sys2Proof
end

