-- ==== Sys2Proof/Decode.lean ====
section
/-!
DEFINITION. From bytes to commands. The rows of spec/opcode_table.json have no bits, so `decodeTableWord` answers none. The commands that come in by a Control Link are
spelled by the bytes of a transaction (R190 to R192, R196, R197): `decodeTransaction` reads them, and `encodeRequest` writes the frame of a request.
-/

namespace Sys2Proof

/-- The command that a word spells by the table's bits: no row gives any (log entry 9). -/
def decodeTableWord (_nbits _w : Nat) : Option Instr := none

namespace Machine

/-! ## Fields of a payload (R197): most significant byte first -/

/-- Two bytes. -/
def word16 (a b : Byte) : BitVec 16 := a ++ b

/-- Four bytes. -/
def word32 (a b c d : Byte) : BitVec 32 := word16 a b ++ word16 c d

/-- Six bytes. -/
def word48 (a b c d e f : Byte) : BitVec 48 := word32 a b c d ++ word16 e f

/-- The two bytes of a word. -/
def bytes16 (x : BitVec 16) : List Byte := [x.extractLsb' 8 8, x.extractLsb' 0 8]

/-- The four bytes of a word. -/
def bytes32 (x : BitVec 32) : List Byte :=
  [x.extractLsb' 24 8, x.extractLsb' 16 8, x.extractLsb' 8 8, x.extractLsb' 0 8]

/-- The six bytes of a word. -/
def bytes48 (x : BitVec 48) : List Byte :=
  [x.extractLsb' 40 8, x.extractLsb' 32 8, x.extractLsb' 24 8, x.extractLsb' 16 8, x.extractLsb' 8 8, x.extractLsb' 0 8]

/-- A request without fields. -/
def payloadNone (bs : List Byte) : Payload Unit :=
  match bs with
  | [] => .fits ()
  | _ => .wrongLength

/-- One byte. -/
def payloadByte (bs : List Byte) : Payload Byte :=
  match bs with
  | [a] => .fits a
  | _ => .wrongLength

/-- Two bytes. -/
def payload16 (bs : List Byte) : Payload (BitVec 16) :=
  match bs with
  | [a, b] => .fits (word16 a b)
  | _ => .wrongLength

/-- Four bytes. -/
def payload32 (bs : List Byte) : Payload (BitVec 32) :=
  match bs with
  | [a, b, c, d] => .fits (word32 a b c d)
  | _ => .wrongLength

/-- SEGMENT_READ: the open tick may be left out (R98, R197). -/
def payloadSegmentRead (bs : List Byte) : Payload SegmentReadArgs :=
  match bs with
  | [i] => .fits ⟨i, none⟩
  | [i, a, b, c, d, e, f] => .fits ⟨i, some (word48 a b c d e f)⟩
  | _ => .wrongLength

/-- SEGMENT_LIST: the after value may be left out (R99, R197). -/
def payloadSegmentList (bs : List Byte) : Payload SegmentListArgs :=
  match bs with
  | [m, x] => .fits ⟨m, x, none⟩
  | [m, x, a, b, c, d, e, f] => .fits ⟨m, x, some (word48 a b c d e f)⟩
  | _ => .wrongLength

/-- INCIDENT_FETCH: the start serial may be left out (R115, R197). -/
def payloadIncidentFetch (bs : List Byte) : Payload (Option (BitVec 32)) :=
  match bs with
  | [] => .fits none
  | [a, b, c, d] => .fits (some (word32 a b c d))
  | _ => .wrongLength

/-- ARCHIVE_READ (R176). -/
def payloadArchiveRead (bs : List Byte) : Payload ArchiveReadArgs :=
  match bs with
  | [x, a, b] => .fits ⟨x, word16 a b⟩
  | _ => .wrongLength

/-- ATTENTION_SET (R200). -/
def payloadAttentionSet (bs : List Byte) : Payload AttentionSetArgs :=
  match bs with
  | [t, a] => .fits ⟨t, a⟩
  | _ => .wrongLength

/-- ANNOUNCE (R69). -/
def payloadAnnounce (bs : List Byte) : Payload AnnounceArgs :=
  match bs with
  | [k, a, b, c, d, m, e, f, g, h, x, q, t, u, v] =>
    .fits ⟨k, word32 a b c d, m, word32 e f g h, x, ⟨q, ⟨t, u, v⟩⟩⟩
  | _ => .wrongLength

/-- WITHDRAW (R73). -/
def payloadWithdraw (bs : List Byte) : Payload WithdrawArgs :=
  match bs with
  | [a, b, c, d, k, m] => .fits ⟨word32 a b c d, k, m⟩
  | _ => .wrongLength

/-- A field preceded by one byte that says whether it follows (R197): the field and what comes after it. Another byte than 0 and 1 is open (log
entry 14). -/
def optional16 (bs : List Byte) : Option (Option (BitVec 16) × List Byte) :=
  match bs with
  | [] => none
  | p :: rest =>
    match choiceOf p, rest with
    | some false, _ => some (none, rest)
    | some true, a :: b :: more => some (some (word16 a b), more)
    | _, _ => none

/-- LIMITS_WRITE (R96, R97): ceiling and dead-air limit may be absent. -/
def payloadLimitsWrite (bs : List Byte) : Payload LimitsWriteArgs :=
  match bs with
  | i :: a :: b :: c :: d :: e :: f :: rest =>
    match optional16 rest with
    | some (ceiling, g :: h :: j :: k :: m :: n :: o :: p :: more) =>
      match optional16 more with
      | some (deadAir, []) =>
        .fits ⟨i, word16 a b, word16 c d, word16 e f, ceiling, word16 g h, word16 j k, word16 m n, word16 o p, deadAir⟩
      | _ => .wrongLength
    | _ => .wrongLength
  | _ => .wrongLength

/-- POLICY_WRITE (R105). -/
def payloadPolicyWrite (bs : List Byte) : Payload PolicyWriteArgs :=
  match bs with
  | [k, m, a, b, c, d, h] => .fits ⟨k, m, word16 a b, word16 c d, h⟩
  | _ => .wrongLength

/-- FEED_SET (R4). -/
def payloadFeedSet (bs : List Byte) : Payload FeedSetArgs :=
  match bs with
  | [f, x, e] => .fits ⟨f, x, e⟩
  | _ => .wrongLength

/-- HOLD_PLACE (R125). -/
def payloadHoldPlace (bs : List Byte) : Payload HoldPlaceArgs :=
  match bs with
  | [a, b, c, d, e, f, g, h, i, j, k, m, n, o] => .fits ⟨word48 a b c d e f, word48 g h i j k m, word16 n o⟩
  | _ => .wrongLength

/-- HOLD_RELEASE (R128). -/
def payloadHoldRelease (bs : List Byte) : Payload HoldReleaseArgs :=
  match bs with
  | [i, a, b, c, d] => .fits ⟨i, word32 a b c d⟩
  | _ => .wrongLength

/-- INCIDENT_REVIEW (R117). -/
def payloadIncidentReview (bs : List Byte) : Payload IncidentReviewArgs :=
  match bs with
  | [a, b, c, d, r] => .fits ⟨word32 a b c d, r⟩
  | _ => .wrongLength

/-- EXPORT_START (R179). -/
def payloadExportStart (bs : List Byte) : Payload ExportStartArgs :=
  match bs with
  | [x, a, b, c, d, e, f, g, h, i, j, k, m] => .fits ⟨x, word48 a b c d e f, word48 g h i j k m⟩
  | _ => .wrongLength

/-- SPARE_LANE_SET (R168): the lane may be given as none. -/
def payloadSpareLaneSet (bs : List Byte) : Payload SpareLaneSetArgs :=
  match bs with
  | g :: r :: p :: rest =>
    match choiceOf p, rest with
    | some false, [q] => .fits ⟨g, r, none, q⟩
    | some true, [k, q] => .fits ⟨g, r, some k, q⟩
    | _, _ => .wrongLength
  | _ => .wrongLength

/-! ## Dispatch of a good frame (R196) -/

/-- The command of a good frame of a kind other than 0, by the request table (R195). -/
def requestOf (l : Link) (kind : Byte) (bs : List Byte) : Instr :=
  match kind.toNat with
  | 1 => .status l (payloadNone bs)
  | 2 => .meter l (payloadByte bs)
  | 3 => .segmentRead l (payloadSegmentRead bs)
  | 4 => .segmentList l (payloadSegmentList bs)
  | 5 => .incidentFetch l (payloadIncidentFetch bs)
  | 6 => .holdList l (payloadByte bs)
  | 7 => .limitsRead l (payloadByte bs)
  | 8 => .policyRead l (payloadByte bs)
  | 9 => .archiveRead l (payloadArchiveRead bs)
  | 10 => .captureRead l (payloadNone bs)
  | 11 => .attentionSet l (payloadAttentionSet bs)
  | 12 => .attentionClear l (payloadByte bs)
  | 16 => .scheduleClaim l (payloadNone bs)
  | 17 => .scheduleYield l (payloadNone bs)
  | 18 => .timeSync l (payload32 bs)
  | 19 => .announce l (payloadAnnounce bs)
  | 20 => .withdraw l (payloadWithdraw bs)
  | 32 => .limitsWrite l (payloadLimitsWrite bs)
  | 33 => .policyWrite l (payloadPolicyWrite bs)
  | 34 => .feedSet l (payloadFeedSet bs)
  | 35 => .heartbeatSet l (payload16 bs)
  | 36 => .holdPlace l (payloadHoldPlace bs)
  | 37 => .holdRelease l (payloadHoldRelease bs)
  | 38 => .incidentReview l (payloadIncidentReview bs)
  | 39 => .exportStart l (payloadExportStart bs)
  | 40 => .exportAbort l (payload32 bs)
  | 41 => .captureClear l (payloadNone bs)
  | 42 => .measureRestart l (payloadNone bs)
  | 43 => .archiveMap l bs
  | 44 => .archiveTest l (payloadNone bs)
  | 45 => .archiveRecord l (payloadNone bs)
  | 46 => .archiveReset l (payloadNone bs)
  | 47 => .spareLaneSet l (payloadSpareLaneSet bs)
  | _ => .unknownRequest l kind bs

/-- The command that the bytes of a transaction spell on a link; none when no byte is clocked (R190, R191, R196). -/
def decodeTransaction (l : Link) (bytes : List Byte) : Option Instr :=
  match bytes with
  | [] => none
  | [_] => some (.frameError l bytes)
  | kind :: len :: rest =>
    if frameGood bytes then
      if kind = 0 then some (.fetch l (rest.take len.toNat) (bytes.length - frameLength len.toNat))
      else some (requestOf l kind (rest.take len.toNat))
    else some (.frameError l bytes)

/-! ## Frames of requests -/

/-- A field that may be absent, preceded by its byte. -/
def optionalBytes (f : α → List Byte) : Option α → List Byte
  | none => [0]
  | some a => 1 :: f a

/-- The last field of a request that may be left out. -/
def trailingBytes (f : α → List Byte) : Option α → List Byte
  | none => []
  | some a => f a

/-- The bytes of a payload that fits. -/
def payloadBytes (f : α → List Byte) : Payload α → Option (List Byte)
  | .fits a => some (f a)
  | .wrongLength => none

/-- The kind and the payload bytes of a request; none for a command that is no request, or whose payload has the wrong length. -/
def requestBytes : Instr → Option (Nat × List Byte)
  | .status _ p => (payloadBytes (fun _ => []) p).map (Prod.mk 1)
  | .meter _ p => (payloadBytes (fun b => [b]) p).map (Prod.mk 2)
  | .segmentRead _ p => (payloadBytes (fun a => a.slot :: trailingBytes bytes48 a.openTick) p).map (Prod.mk 3)
  | .segmentList _ p => (payloadBytes (fun a => a.mask :: a.selector :: trailingBytes bytes48 a.after) p).map (Prod.mk 4)
  | .incidentFetch _ p => (payloadBytes (fun a => trailingBytes bytes32 a) p).map (Prod.mk 5)
  | .holdList _ p => (payloadBytes (fun b => [b]) p).map (Prod.mk 6)
  | .limitsRead _ p => (payloadBytes (fun b => [b]) p).map (Prod.mk 7)
  | .policyRead _ p => (payloadBytes (fun b => [b]) p).map (Prod.mk 8)
  | .archiveRead _ p => (payloadBytes (fun a => a.part :: bytes16 a.position) p).map (Prod.mk 9)
  | .captureRead _ p => (payloadBytes (fun _ => []) p).map (Prod.mk 10)
  | .attentionSet _ p => (payloadBytes (fun a => [a.target, a.action]) p).map (Prod.mk 11)
  | .attentionClear _ p => (payloadBytes (fun b => [b]) p).map (Prod.mk 12)
  | .scheduleClaim _ p => (payloadBytes (fun _ => []) p).map (Prod.mk 16)
  | .scheduleYield _ p => (payloadBytes (fun _ => []) p).map (Prod.mk 17)
  | .timeSync _ p => (payloadBytes bytes32 p).map (Prod.mk 18)
  | .announce _ p =>
    (payloadBytes (fun a =>
      a.kind :: bytes32 a.segmentId ++ a.mask :: bytes32 a.time
        ++ [a.limitSet, a.requirement.form, a.requirement.tag.a, a.requirement.tag.b, a.requirement.tag.c]) p).map (Prod.mk 19)
  | .withdraw _ p => (payloadBytes (fun a => bytes32 a.segmentId ++ [a.kind, a.mask]) p).map (Prod.mk 20)
  | .limitsWrite _ p =>
    (payloadBytes (fun a =>
      a.index :: bytes16 a.target ++ bytes16 a.toleranceAbove ++ bytes16 a.toleranceBelow
        ++ optionalBytes bytes16 a.ceiling ++ bytes16 a.minBlocks ++ bytes16 a.speechThreshold ++ bytes16 a.maxGap
        ++ bytes16 a.minCoverage ++ optionalBytes bytes16 a.deadAir) p).map (Prod.mk 32)
  | .policyWrite _ p =>
    (payloadBytes (fun a => a.kind :: a.mode :: bytes16 a.preRoll ++ bytes16 a.postRoll ++ [a.autoHold]) p).map (Prod.mk 33)
  | .feedSet _ p => (payloadBytes (fun a => [a.feed, a.layout, a.enable]) p).map (Prod.mk 34)
  | .heartbeatSet _ p => (payloadBytes bytes16 p).map (Prod.mk 35)
  | .holdPlace _ p => (payloadBytes (fun a => bytes48 a.first ++ bytes48 a.last ++ bytes16 a.reason) p).map (Prod.mk 36)
  | .holdRelease _ p => (payloadBytes (fun a => a.index :: bytes32 a.number) p).map (Prod.mk 37)
  | .incidentReview _ p => (payloadBytes (fun a => bytes32 a.serial ++ [a.release]) p).map (Prod.mk 38)
  | .exportStart _ p => (payloadBytes (fun a => a.mask :: bytes48 a.first ++ bytes48 a.last) p).map (Prod.mk 39)
  | .exportAbort _ p => (payloadBytes bytes32 p).map (Prod.mk 40)
  | .captureClear _ p => (payloadBytes (fun _ => []) p).map (Prod.mk 41)
  | .measureRestart _ p => (payloadBytes (fun _ => []) p).map (Prod.mk 42)
  | .archiveMap _ groups => some (43, groups)
  | .archiveTest _ p => (payloadBytes (fun _ => []) p).map (Prod.mk 44)
  | .archiveRecord _ p => (payloadBytes (fun _ => []) p).map (Prod.mk 45)
  | .archiveReset _ p => (payloadBytes (fun _ => []) p).map (Prod.mk 46)
  | .spareLaneSet _ p =>
    (payloadBytes (fun a => a.group :: a.rowBlock :: optionalBytes (fun k => [k]) a.lane ++ [a.quiet]) p).map (Prod.mk 47)
  | _ => none

/-- An inbound frame (R190). -/
def frameOf (kind : Nat) (payload : List Byte) : List Byte :=
  withCrc (beBytes 1 kind ++ beBytes 1 payload.length ++ payload)

/-- The frame of a request (R190, R192, R197). -/
def encodeRequest (i : Instr) : Option (List Byte) := (requestBytes i).map (fun r => frameOf r.1 r.2)

end Machine

end Sys2Proof
end

