-- ==== Sys2Proof/Machine/Holds.lean ====
section
/-!
DEFINITION. Requests of the Retention Unit (chapter 7): HOLD_PLACE (R125 to R127), HOLD_RELEASE (R128), HOLD_LIST (R134).
Meanings: HOLD_PLACE, HOLD_RELEASE, HOLD_LIST.
-/

namespace Sys2Proof.Machine

/-- The fields of R121 of the hold in an entry. -/
def holdFields (e : Nat × Hold) : List Wire :=
  [.byte e.1, .long e.2.number] ++ ownerFields e.2.owner
    ++ [.tick e.2.first, .tick e.2.last, .long e.2.pages, .word e.2.reason]

/-- The RU takes a HOLD_PLACE (R125, R127). -/
def holdPlaceTaken (l : Link) (a : HoldPlaceArgs) (s : State) : State × Reply :=
  match judgePlacement s (.link l) a.first.toNat a.last.toNat a.reason.toNat with
  | .refused st => refuse st s
  | .placed i h clamped =>
    let ru := s.ru.take (.placed i h clamped)
    (s.withRu ru,
      ⟨if clamped then .clamped else .ok,
       [.byte i, .long h.number, .tick h.first, .tick h.last, .long h.pages, .long ru.quota, .long (committedSum ru.holds)]⟩)

/-- HOLD_PLACE (R125). -/
def execHoldPlace (l : Link) (p : Payload HoldPlaceArgs) (s : State) : Host.Outcome State Fault Refusal :=
  .next (passRequest 36 l p s (holdPlaceTaken l))

/-- The reply of a HOLD_RELEASE that released a hold (R128). -/
def releasedReply (ru : Ru) (e : Nat × Hold) : Reply := ⟨.ok, holdFields e ++ [.long (committedSum ru.holds)]⟩

/-- The release of the hold in an entry by its owner (R128). -/
def releaseByOwner (s : State) (i : Nat) (h : Hold) : State × Reply :=
  let ru := s.ru.release i
  match h.owner with
  | .link _ => (s.withRu ru, releasedReply ru (i, h))
  | .incident n => ((s.withRu ru).withIu (s.iu.updateRecord n Incident.unhold), releasedReply ru (i, h))
  | .job _ => refuse .wrongState s

/-- The RU takes a HOLD_RELEASE (R128); a hold number of 0 matches any hold. -/
def holdReleaseTaken (a : HoldReleaseArgs) (s : State) : State × Reply :=
  if Config.holdEntries ≤ a.index.toNat then refuse .badArgument s
  else
    match tableGet s.ru.holds a.index.toNat with
    | none => refuse .notFound s
    | some h =>
      if a.number ≠ 0 ∧ a.number.toNat ≠ h.number then refuse .notFound s
      else releaseByOwner s a.index.toNat h

/-- HOLD_RELEASE (R128). -/
def execHoldRelease (l : Link) (p : Payload HoldReleaseArgs) (s : State) : Host.Outcome State Fault Refusal :=
  .next (passRequest 37 l p s holdReleaseTaken)

/-- The holds at or above an index, in table order (R134). -/
def holdsFrom (holds : List (Nat × Hold)) (i : Nat) : List (Nat × Hold) := holds.filter (fun e => decide (i ≤ e.1))

/-- The next index of a HOLD_LIST (R134). -/
def nextHoldIndex (holds : List (Nat × Hold)) (i : Nat) : Option Nat :=
  if Config.itemsPerReply < (holdsFrom holds i).length then
    (((holdsFrom holds i).take Config.itemsPerReply).getLast?).map (fun e => e.1 + 1)
  else none

/-- A tick that is shown only while the archive is RECORDING (R134). -/
def whileRecording (s : State) (t : Nat) : Option Nat := if s.ac.state = .recording then some t else none

/-- The payload of HOLD_LIST (R134). -/
def holdListFields (s : State) (i : Nat) : List Wire :=
  listed holdFields ((holdsFrom s.ru.holds i).take Config.itemsPerReply)
    ++ optionalField (fun n => [.byte n]) (nextHoldIndex s.ru.holds i)
    ++ [.word s.ru.holds.length, .long (committedSum s.ru.holds), .long s.ru.quota, .long s.ru.healthyPages,
        .choice s.ru.overQuota]
    ++ optionalField (fun t => [.tick t]) (whileRecording s s.retentionFloor)
    ++ optionalField (fun t => [.tick t]) (whileRecording s s.retentionHorizon)

/-- The RU takes a HOLD_LIST (R134). -/
def holdListTaken (b : Byte) (s : State) : State × Reply :=
  if Config.holdEntries ≤ b.toNat then refuse .badArgument s else (s, ⟨.ok, holdListFields s b.toNat⟩)

/-- HOLD_LIST (R134). -/
def execHoldList (l : Link) (p : Payload Byte) (s : State) : Host.Outcome State Fault Refusal :=
  .next (passRequest 6 l p s holdListTaken)

end Sys2Proof.Machine
end

