-- ==== Sys2Proof/Machine/Resets.lean ====
section
/-!
DEFINITION. Resets: power-on and the RESET pin (R14, R37, R57, R77, R100, R119, R135, R152, R177, R189, R201) and MEASURE_RESTART (R15, R38, R58, R78, R101).
Meanings: POWER_ON, RESET_PIN, MEASURE_RESTART.
-/

namespace Sys2Proof.Machine

/-- The part after the straps are sampled (R14, R195): every block as reset leaves it, the contents of the memory lost (R177, log entry 11); commands that
wait stay waiting (log entry 36). -/
def State.restart (s : State) (straps : Tri Straps) : State :=
  State.afterReset s.pending (s.ac.epoch + 1) (straps.map roleOf)

/-- POWER_ON (R14). -/
def execPowerOn (straps : Tri Straps) (s : State) : Host.Outcome State Fault Refusal :=
  .next (s.restart straps)

/-- The part while the RESET pin is held (R190, R201): every block as reset leaves it, the roles not yet sampled afresh, no frame received and ALERT
released (log entry 51). -/
def State.hold (s : State) : State :=
  let t := State.afterReset s.pending (s.ac.epoch + 1) (s.li.links.map (·.role))
  t.withLi { t.li with resetHeld := true }

/-- What the RESET pin brings about: its release has the effect of power-on (R14). -/
def State.resetBy (s : State) : ResetPin → State
  | .held => s.hold
  | .released straps => s.restart straps

/-- RESET_PIN (R14). -/
def execResetPin (pin : ResetPin) (s : State) : Host.Outcome State Fault Refusal :=
  .next (s.resetBy pin)

/-- The FIU at a MEASURE_RESTART (R15). -/
def Fiu.measureRestart (x : Fiu) : Fiu :=
  { x with
    history := Oct.fill []
    filters := x.settings.map (fun y => zeroFilters y.layout)
    frontier := none
    settledTo := Oct.fill none
    baseTick := x.openTick + 1 }

/-- The LM at a MEASURE_RESTART (R38). -/
def Lm.measureRestart (x : Lm) : Lm :=
  { x with programme := Oct.fill Integrator.unbound, item := Oct.fill Integrator.unbound }

/-- The SU at a MEASURE_RESTART (R78): the heartbeat limit is kept. -/
def Su.measureRestart (x : Su) : Su := { Su.reset with limit := x.limit }

/-- The SG at a MEASURE_RESTART (R101): limit sets and close sequence are kept. -/
def Sg.measureRestart (x : Sg) : Sg := { Sg.reset with limits := x.limits, closeSeq := x.closeSeq }

/-- Every block takes a MEASURE_RESTART (R196). SCHEDULE is flagged when an owner was vacated (R68). -/
def measureRestartTaken (_ : Unit) (s0 : State) : State × Reply :=
  let s := s0.lapseFirst
  let y := ((((s.withFiu s.fiu.measureRestart).withLm s.lm.measureRestart).withCc Cc.reset).withSu
    s.su.measureRestart).withSg s.sg.measureRestart
  (if s.su.owner.isSome then y.flagAll .schedule else y, ⟨.ok, []⟩)

/-- MEASURE_RESTART (R196). -/
def execMeasureRestart (l : Link) (p : Payload Unit) (s : State) : Host.Outcome State Fault Refusal :=
  .next (passRequest 42 l p s measureRestartTaken)

end Sys2Proof.Machine
end

