-- ==== Sys2Proof/Machine/Dispatch.lean ====
section
/-!
DEFINITION. One arm for each command: a direct call of its meaning.
-/

namespace Sys2Proof.Machine

/-- The effect of a command on everything but the queue of waiting commands. -/
def exec (i : Instr) (s : State) : Host.Outcome State Fault Refusal :=
  match i with
  | .powerOn straps => Sys2Proof.Machine.execPowerOn straps s
  | .resetPin pin => Sys2Proof.Machine.execResetPin pin s
  | .wordClockPeriod frames => Sys2Proof.Machine.execWordClockPeriod frames s
  | .laneLock f => Sys2Proof.Machine.execLaneLock f s
  | .captionPacket p => Sys2Proof.Machine.execCaptionPacket p s
  | .tickClose xbsy => Sys2Proof.Machine.execTickClose xbsy s
  | .captionStale f => Sys2Proof.Machine.execCaptionStale f s
  | .carriageAbsent f => Sys2Proof.Machine.execCarriageAbsent f s
  | .heartbeatLapse => Sys2Proof.Machine.execHeartbeatLapse s
  | .settlement f => Sys2Proof.Machine.execSettlement f s
  | .settledTickNoticeLm f => Sys2Proof.Machine.execSettledTickNoticeLm f s
  | .settledTickNoticeCc f => Sys2Proof.Machine.execSettledTickNoticeCc f s
  | .verdict f => Sys2Proof.Machine.execVerdict f s
  | .incidentReport n => Sys2Proof.Machine.execIncidentReport n s
  | .recordWriteGrant => Sys2Proof.Machine.execRecordWriteGrant s
  | .recordWriteCompletion => Sys2Proof.Machine.execRecordWriteCompletion s
  | .accessTimeout words wrong => Sys2Proof.Machine.execAccessTimeout words wrong s
  | .scrubReadGrant => Sys2Proof.Machine.execScrubReadGrant s
  | .scrubReadCompletion wrong => Sys2Proof.Machine.execScrubReadCompletion wrong s
  | .exportReadGrant => Sys2Proof.Machine.execExportReadGrant s
  | .exportReadCompletion wrong => Sys2Proof.Machine.execExportReadCompletion wrong s
  | .testAccessGrant => Sys2Proof.Machine.execTestAccessGrant s
  | .testAccessCompletion wrong => Sys2Proof.Machine.execTestAccessCompletion wrong s
  | .exportStrobe => Sys2Proof.Machine.execExportStrobe s
  | .exportStall => Sys2Proof.Machine.execExportStall s
  | .frameError l bytes => Sys2Proof.Machine.execFrameError l bytes s
  | .unknownRequest l kind payload => Sys2Proof.Machine.execUnknownRequest l kind payload s
  | .replyArrival n => Sys2Proof.Machine.execReplyArrival n s
  | .fetch l payload clocked => Sys2Proof.Machine.execFetch l payload clocked s
  | .status l p => Sys2Proof.Machine.execStatus l p s
  | .meter l p => Sys2Proof.Machine.execMeter l p s
  | .segmentRead l p => Sys2Proof.Machine.execSegmentRead l p s
  | .segmentList l p => Sys2Proof.Machine.execSegmentList l p s
  | .incidentFetch l p => Sys2Proof.Machine.execIncidentFetch l p s
  | .holdList l p => Sys2Proof.Machine.execHoldList l p s
  | .limitsRead l p => Sys2Proof.Machine.execLimitsRead l p s
  | .policyRead l p => Sys2Proof.Machine.execPolicyRead l p s
  | .archiveRead l p => Sys2Proof.Machine.execArchiveRead l p s
  | .captureRead l p => Sys2Proof.Machine.execCaptureRead l p s
  | .attentionSet l p => Sys2Proof.Machine.execAttentionSet l p s
  | .attentionClear l p => Sys2Proof.Machine.execAttentionClear l p s
  | .scheduleClaim l p => Sys2Proof.Machine.execScheduleClaim l p s
  | .scheduleYield l p => Sys2Proof.Machine.execScheduleYield l p s
  | .timeSync l p => Sys2Proof.Machine.execTimeSync l p s
  | .announce l p => Sys2Proof.Machine.execAnnounce l p s
  | .withdraw l p => Sys2Proof.Machine.execWithdraw l p s
  | .limitsWrite l p => Sys2Proof.Machine.execLimitsWrite l p s
  | .policyWrite l p => Sys2Proof.Machine.execPolicyWrite l p s
  | .feedSet l p => Sys2Proof.Machine.execFeedSet l p s
  | .heartbeatSet l p => Sys2Proof.Machine.execHeartbeatSet l p s
  | .holdPlace l p => Sys2Proof.Machine.execHoldPlace l p s
  | .holdRelease l p => Sys2Proof.Machine.execHoldRelease l p s
  | .incidentReview l p => Sys2Proof.Machine.execIncidentReview l p s
  | .exportStart l p => Sys2Proof.Machine.execExportStart l p s
  | .exportAbort l p => Sys2Proof.Machine.execExportAbort l p s
  | .captureClear l p => Sys2Proof.Machine.execCaptureClear l p s
  | .measureRestart l p => Sys2Proof.Machine.execMeasureRestart l p s
  | .archiveMap l groups => Sys2Proof.Machine.execArchiveMap l groups s
  | .archiveTest l p => Sys2Proof.Machine.execArchiveTest l p s
  | .archiveRecord l p => Sys2Proof.Machine.execArchiveRecord l p s
  | .archiveReset l p => Sys2Proof.Machine.execArchiveReset l p s
  | .spareLaneSet l p => Sys2Proof.Machine.execSpareLaneSet l p s

end Sys2Proof.Machine
end

