-- ==== Sys2Proof/Safety.lean ====
section
/-!
DEFINITION. The terms that statements about the part use: what a request is, what the Link Interface holds after a request was passed on, when a
settlement is due and what it leaves, what a lookup leaves, and the invariants that every step keeps. A safe run of the part is one that never stops and in which these invariants hold.
-/

namespace Sys2Proof.Machine

/-! ## Requests -/

/-- The link and the kind byte of a request command (R195). -/
def requestKind : Instr → Option (Link × Nat)
  | .status l _ => some (l, 1)
  | .meter l _ => some (l, 2)
  | .segmentRead l _ => some (l, 3)
  | .segmentList l _ => some (l, 4)
  | .incidentFetch l _ => some (l, 5)
  | .holdList l _ => some (l, 6)
  | .limitsRead l _ => some (l, 7)
  | .policyRead l _ => some (l, 8)
  | .archiveRead l _ => some (l, 9)
  | .captureRead l _ => some (l, 10)
  | .attentionSet l _ => some (l, 11)
  | .attentionClear l _ => some (l, 12)
  | .scheduleClaim l _ => some (l, 16)
  | .scheduleYield l _ => some (l, 17)
  | .timeSync l _ => some (l, 18)
  | .announce l _ => some (l, 19)
  | .withdraw l _ => some (l, 20)
  | .limitsWrite l _ => some (l, 32)
  | .policyWrite l _ => some (l, 33)
  | .feedSet l _ => some (l, 34)
  | .heartbeatSet l _ => some (l, 35)
  | .holdPlace l _ => some (l, 36)
  | .holdRelease l _ => some (l, 37)
  | .incidentReview l _ => some (l, 38)
  | .exportStart l _ => some (l, 39)
  | .exportAbort l _ => some (l, 40)
  | .captureClear l _ => some (l, 41)
  | .measureRestart l _ => some (l, 42)
  | .archiveMap l _ => some (l, 43)
  | .archiveTest l _ => some (l, 44)
  | .archiveRecord l _ => some (l, 45)
  | .archiveReset l _ => some (l, 46)
  | .spareLaneSet l _ => some (l, 47)
  | _ => none

/-- Whether a payload has a length its kind carries. -/
def payloadIs : Payload α → Bool
  | .fits _ => true
  | .wrongLength => false

/-- Whether the payload of a request has a length its kind carries (R196, step 3). -/
def lengthFits : Instr → Bool
  | .status _ p => payloadIs p
  | .meter _ p => payloadIs p
  | .segmentRead _ p => payloadIs p
  | .segmentList _ p => payloadIs p
  | .incidentFetch _ p => payloadIs p
  | .holdList _ p => payloadIs p
  | .limitsRead _ p => payloadIs p
  | .policyRead _ p => payloadIs p
  | .archiveRead _ p => payloadIs p
  | .captureRead _ p => payloadIs p
  | .attentionSet _ p => payloadIs p
  | .attentionClear _ p => payloadIs p
  | .scheduleClaim _ p => payloadIs p
  | .scheduleYield _ p => payloadIs p
  | .timeSync _ p => payloadIs p
  | .announce _ p => payloadIs p
  | .withdraw _ p => payloadIs p
  | .limitsWrite _ p => payloadIs p
  | .policyWrite _ p => payloadIs p
  | .feedSet _ p => payloadIs p
  | .heartbeatSet _ p => payloadIs p
  | .holdPlace _ p => payloadIs p
  | .holdRelease _ p => payloadIs p
  | .incidentReview _ p => payloadIs p
  | .exportStart _ p => payloadIs p
  | .exportAbort _ p => payloadIs p
  | .captureClear _ p => payloadIs p
  | .measureRestart _ p => payloadIs p
  | .archiveTest _ p => payloadIs p
  | .archiveRecord _ p => payloadIs p
  | .archiveReset _ p => payloadIs p
  | .spareLaneSet _ p => payloadIs p
  | _ => true

/-- The part receives frames (R190), and link `l`'s role reaches the request of a kind (R195). -/
abbrev State.mayAsk (s : State) (l : Link) (kind : Nat) : Prop :=
  s.li.resetHeld = false ∧ reachesKind (s.li.links.get l).role kind = true

/-- The Link Interface after a request from link `l` was passed on and the block's reply has set out: the slot WAITING on the request's number, nothing driven
(R193, R196). -/
def Li.passed (li : Li) (l : Link) (kind : Nat) (r : Reply) : Li :=
  { li with
    links := li.links.update l (fun x => { x with slot := .waiting (BitVec.ofNat 8 kind) li.nextRequest, dataOut := [] })
    replies := li.replies ++ [⟨l, li.nextRequest, r⟩]
    nextRequest := li.nextRequest + 1 }

/-! ## Settlements -/

/-- The next settlement of feed `f` is due (R9, R93): tick `u` with entries `es` is the next handed over, both notices of the tick before have been handled, and no
record of the feed awaits its verdict; the Segment Table is in its canonical form. -/
def settlementDue (s : State) (f : Feed) (u : Nat) (es : List Entry) (rest : List HandedTick) : Prop :=
  s.sg.inbox.get f = ⟨u, es⟩ :: rest ∧ s.sg.noticeLm.get f = none ∧ s.sg.noticeCc.get f = none ∧ tableSorted s.sg.table ∧
    ∀ x ∈ s.sg.table, x.2.feed = f → x.2.verdict ≠ some .pending

/-- Slot `p` holds the one OPEN level-1 record of feed `f`, and `it` is the one OPEN item with its slot, if there is one (R81). -/
def onAir (s : State) (f : Feed) (p : Nat) (r : Segment) (it : Option (Nat × Segment)) : Prop :=
  tableGet s.sg.table p = some r ∧ r.feed = f ∧ r.state = .opened ∧ r.kind ≠ .item ∧
    (∀ x, it = some x → x ∈ s.sg.table ∧ x.2.feed = f ∧ x.2.state = .opened ∧ x.2.kind = .item) ∧
    ∀ x ∈ s.sg.table, x.2.feed = f → x.2.state = .opened → x = (p, r) ∨ it = some x

/-- `su` is the one SUSPENDED programme of feed `f` with its slot, if there is one (R81). -/
def suspendedIs (s : State) (f : Feed) (su : Option (Nat × Segment)) : Prop :=
  (∀ x, su = some x → x ∈ s.sg.table ∧ x.2.feed = f ∧ x.2.state = .suspended ∧ x.2.kind = .programme) ∧
    ∀ x ∈ s.sg.table, x.2.feed = f → x.2.state = .suspended → su = some x

/-- `i` is the lowest free slot from `first` on (R80). -/
def lowestFreeSlot (table : List (Nat × Segment)) (first i : Nat) : Prop :=
  first ≤ i ∧ i < 128 ∧ tableGet table i = none ∧ ∀ j, first ≤ j → j < i → tableGet table j ≠ none

/-- `c` is the record `x` after its close with a close sequence and a cause (R89): it keeps its fields, takes the results of its integrator as they stood in `s` (R25)
and its coverage (R56), and awaits its verdict. -/
def closedAs (s : State) (x : Nat × Segment) (seq : Nat) (cause : AnnounceKind × Nat) (c : Segment) : Prop :=
  c = { x.2 with
    state := .closed, lastMember := x.2.latestMember, closeSeq := some seq, cause := some cause, verdict := some .pending
    loudness := c.loudness, coverage := c.coverage } ∧
  c.loudness = (match x.2.kind with
    | .adBreak => none
    | .item => some (s.lm.item.get x.2.feed).results
    | _ => some (s.lm.programme.get x.2.feed).results) ∧
  (x.2.requirement = .none ∨ x.2.speechTicks = 0 → c.coverage = none) ∧
  (x.2.requirement ≠ .none → x.2.speechTicks ≠ 0 → c.coverage = some (1000 * x.2.coveredTicks / x.2.speechTicks))

/-- What the settlement of tick `u` on feed `f` with membership `m` leaves beside the table and the integrators of the feed (R9, R12, R13, R90): the tick record SETTLED,
both notices sent, the frontier at the newest tick that every feed has settled; every other block and feed as before. -/
def settledWith (s t : State) (f : Feed) (u : Nat) (rest : List HandedTick) (m : Membership) : Prop :=
  t = { s with
    fiu := { s.fiu with
      history := t.fiu.history, settledTo := s.fiu.settledTo.set f (some u), frontier := t.fiu.frontier }
    lm := { s.lm with programme := t.lm.programme, item := t.lm.item }
    sg := { s.sg with
      table := t.sg.table, closeSeq := t.sg.closeSeq, inbox := s.sg.inbox.set f rest
      noticeLm := s.sg.noticeLm.set f (some ⟨u, m⟩), noticeCc := s.sg.noticeCc.set f (some ⟨u, m⟩) } } ∧
  (∀ g, g ≠ f → t.fiu.history.get g = s.fiu.history.get g ∧ t.lm.programme.get g = s.lm.programme.get g ∧
    t.lm.item.get g = s.lm.item.get g) ∧
  t.fiu.history.get f = (s.fiu.history.get f).map (fun q => if q.tick = u then { q with membership := some m } else q) ∧
  ∀ v, t.fiu.frontier = some v ↔
    (∃ g, t.fiu.settledTo.get g = some v) ∧ ∀ g, ∃ w, t.fiu.settledTo.get g = some w ∧ v ≤ w

/-! ## Export jobs -/

/-- What the lookup of job `k` at its tick leaves, `rest` being the jobs behind it (R181): its records absent or unavailable and the job SENDING, or a read requested and
the job READING. -/
def lookedUp (s t : State) (k : Job) (rest : List Job) : Prop :=
  (pageOf s.rc.spans k.tick = none → t.ac = s.ac ∧ t.xu.buffer = k.mask.map (fun h => (h, .absent)) ∧
    ∃ h, t.xu.jobs = { k with phase := .sending, feed := h } :: rest) ∧
  ∀ p, pageOf s.rc.spans k.tick = some p →
    ((∃ g, s.ac.bank[p / 524288]? = some g ∧ (s.ac.groups.get g).state = .faulted) →
      t.ac = s.ac ∧ t.xu.buffer = k.mask.map (fun h => (h, .unavailable)) ∧
      ∃ h, t.xu.jobs = { k with phase := .sending, feed := h } :: rest) ∧
    ((∀ g, s.ac.bank[p / 524288]? = some g → (s.ac.groups.get g).state ≠ .faulted) →
      t.ac = { s.ac with exportRequest := some ⟨k.tick, p, k.mask⟩ } ∧ t.xu.unsent = [] ∧ t.xu.buffer = [] ∧
      t.xu.jobs = { k with phase := .reading, feed := k.mask.head? } :: rest)

/-! ## Invariants -/

/-- The canonical form of the archive memory: addresses strictly rising. -/
abbrev Memory.wf (d : List (Nat × BitVec 73)) : Prop := tableSorted d

/-- The quota is drawn from the health of the mapped groups (R123), and the memory is in its canonical form. -/
def archiveBookkeeping (s : State) : Prop :=
  Memory.wf s.ac.dram ∧ s.ru.healthyPages = 524288 * (s.ac.bank.filter (fun g => (s.ac.groups.get g).state = .healthy)).length
    ∧ s.ru.quota = s.ru.healthyPages / 2

/-- The schedule owner, if any, is a link with the scheduler role (R64). -/
def ownerIsScheduler (s : State) : Prop :=
  ∀ l : Link, s.su.owner = some l →
    (s.li.links.get l).role = .scheduler ∨ (s.li.links.get l).role = .schedulerAuditor

/-- Place of an entry in a Pending List: by tick, and within a tick by level (R71). -/
def Entry.rank (e : Entry) : Nat := 2 * e.tick + (e.kind.level - 1)

/-- A Pending List is in order, with no two entries of one level at one tick, and has at most 8 entries (R71). -/
def listInOrder (es : List Entry) : Prop := es.Pairwise (fun a b => a.rank < b.rank) ∧ es.length ≤ 8

/-- Every entry lies after the handed-over tick (R71), or at or after the base tick while there is none (R60). -/
def entriesAhead (s : State) (es : List Entry) : Prop :=
  ∀ e ∈ es, match s.su.handed with
    | some h => h < e.tick
    | none => s.fiu.baseTick ≤ e.tick

/-- The hand-over keeps pace with the tick counter (R75): the newest handed-over tick is c - 80, and there is none exactly while tick
B0 + 80 has not closed; ticks wait to be settled, or have been settled, only after a hand-over. -/
def handOverInPace (s : State) : Prop :=
  (match s.su.handed with
   | some h => s.fiu.openTick = h + 81 ∧ s.fiu.baseTick ≤ h
   | none => s.fiu.openTick ≤ s.fiu.baseTick + 80) ∧
  (s.su.handed = none → s.fiu.frontier = none ∧ ∀ f, s.sg.inbox.get f = [] ∧ s.fiu.settledTo.get f = none)

/-- The Pending Lists are a true and orderly account of boundaries still to come (R71). -/
def scheduleInOrder (s : State) : Prop :=
  handOverInPace s ∧ ∀ f, listInOrder (s.su.lists.get f) ∧ entriesAhead s (s.su.lists.get f)

/-- The Incident Log is ordered by serial, holds at most 256 records and only serials issued, and every cursor lies between 1 and the serial counter
(R107, R112, R114). -/
def logInOrder (s : State) : Prop :=
  s.iu.log.Pairwise (fun a b => a.serial < b.serial) ∧ s.iu.log.length ≤ 256 ∧ (∀ x ∈ s.iu.log, x.serial < s.iu.nextSerial)
    ∧ (∀ l, 1 ≤ s.iu.cursors.get l ∧ s.iu.cursors.get l ≤ s.iu.nextSerial)

/-- The Hold Table is in its canonical form: 64 entries, in the order of their indexes (R121, R122). -/
def holdsInOrder (s : State) : Prop := tableSorted s.ru.holds ∧ ∀ e ∈ s.ru.holds, e.1 < 64 ∧ e.2.number < s.ru.counter

/-- A record with a hold index names an active hold of its own, and an incident hold is named by a retained record (R112). -/
def holdsPaired (s : State) : Prop :=
  (∀ x ∈ s.iu.log, ∀ i, x.holdIndex = some i → ∃ h, tableGet s.ru.holds i = some h ∧ h.owner = .incident x.serial) ∧
  (∀ i h n, tableGet s.ru.holds i = some h → h.owner = .incident n → ∃ x ∈ s.iu.log, x.serial = n ∧ x.holdIndex = some i)

/-- The Incident Log and the incident holds are kept whole (R107, R112, R114). -/
def incidentsKeptWhole (s : State) : Prop := logInOrder s ∧ holdsInOrder s ∧ holdsPaired s

/-- All the invariants that every step keeps. -/
def Inv (s : State) : Prop := archiveBookkeeping s ∧ ownerIsScheduler s ∧ scheduleInOrder s ∧ incidentsKeptWhole s

end Sys2Proof.Machine
end

