-- ==== Sys2Proof/Certificates/Slice0/Obligations.lean ====
section
/-!
DEFINITION. The statements about the part. A statement's docstring names the rules of spec/ it says. In all of them `s` is the state before a command and `t` the state
after it; `{ s with … }` says that every other block of the part and the queue of waiting commands are as before. `s.li.passed l k r` is the Link Interface
once a request was passed on and the reply of its block has set out, both in one command (log entry 3), with nothing driven (log entry 35).
-/

open Sys2Proof Sys2Proof.Machine

/-! ## The machine as a whole -/

/-- A step is `exec` of the front command on the state with the queue's rest; on an empty queue the part idles (the model's choice, log entry 2). -/
def Obligations.StepTakesTheFrontCommand : Prop :=
  (∀ (c : Instr) (rest : List Instr) (s : State), s.pending = c :: rest → step s = exec c { s with pending := rest }) ∧
  (∀ s : State, s.pending = [] → step s = .next s)

/-- Every command but SETTLEMENT answers a next state from every state (where its step is not due it answers the state as it is: log entry 1), SETTLEMENT answers one or the
fault of log entry 31, no command is refused, and no command changes the queue (that power-on and the RESET pin keep it is log entry 36). -/
def Obligations.CommandsCompleteAndKeepTheQueue : Prop :=
  (∀ (c : Instr) (s : State),
    (∃ t, exec c s = .next t) ∨ (∃ f, c = .settlement f ∧ exec c s = .fault .segmentTableExhausted)) ∧
  (∀ (c : Instr) (s t : State), exec c s = .next t → t.pending = s.pending)

/-- R80, R83 to R88: a settlement completes wherever two slots of the Segment Table are free, in a table in its canonical form whose SUSPENDED
records are programmes. -/
def Obligations.SettlementWithRoomCompletes : Prop :=
  ∀ (f : Feed) (s : State) (i j : Nat),
    tableSorted s.sg.table → (∀ e ∈ s.sg.table, e.2.state = .suspended → e.2.kind = .programme) →
    i < j → j < 128 → tableGet s.sg.table i = none → tableGet s.sg.table j = none →
    ∃ t, exec (.settlement f) s = .next t

/-- POWER_ON and RESET_PIN complete from every state. Power-on and the release of the RESET pin leave the starting state of every block (R14, R37, R57, R77, R100, R104, R119, R135, R152,
R177, R189, R201), with the role each link's straps give (R195) and the queue kept (log entry 36). The memory is read as holding nothing the part knows (log entry 11), and a stopped heartbeat
timer stands at 0 (log entry 42). While the pin is held every block already stands so, but the roles are those sampled last, and ALERT is released (the model's reading, log entry 51). -/
def Obligations.ResetsGiveTheStartingState : Prop :=
  (∀ (straps : Tri Straps) (s : State), ∃ t,
    exec (.powerOn straps) s = .next t ∧ exec (.resetPin (.released straps)) s = .next t ∧ t.pending = s.pending ∧
    (t.fiu.openTick = 0 ∧ t.fiu.periods = 0 ∧ t.fiu.baseTick = 0 ∧ t.fiu.frontier = none ∧ t.closedTick = none) ∧
    (∀ f, t.fiu.lanes.get f = ⟨false, 0⟩ ∧ t.fiu.settings.get f = ⟨.stereo, true⟩ ∧ t.fiu.pendingSettings.get f = none ∧
      t.fiu.captionErrors.get f = 0 ∧ t.fiu.history.get f = [] ∧ t.fiu.settledTo.get f = none ∧
      t.fiu.heard.get f = false ∧ t.fiu.broken.get f = false ∧
      t.fiu.filters.get f = [⟨⟨0, 0, 0, 0⟩, ⟨0, 0, 0, 0⟩⟩, ⟨⟨0, 0, 0, 0⟩, ⟨0, 0, 0, 0⟩⟩]) ∧
    (∀ f, t.lm.programme.get f = ⟨none, [], 0, 0, -999, none⟩ ∧ t.lm.item.get f = ⟨none, [], 0, 0, -999, none⟩ ∧
      t.lm.energies.get f = [0, 0]) ∧
    (∀ f, t.cc.feeds.get f = ⟨.clear, 0, false, none, false, [], 0, none, false, false, 0, none, false, none⟩) ∧
    (t.su.anchor = none ∧ t.su.owner = none ∧ t.su.timer = 0 ∧ t.su.limit = 100 ∧ (∀ f, t.su.lists.get f = []) ∧
      t.su.recent = [] ∧ t.su.handed = none ∧ t.su.lapseDue = false) ∧
    (t.sg.table = [] ∧ t.sg.closeSeq = 0 ∧ (∀ i, t.sg.limits.get i = ⟨-230, 10, 20, none, 50, -500, 100, 950, some 100⟩) ∧
      ∀ f, t.sg.inbox.get f = [] ∧ t.sg.noticeLm.get f = none ∧ t.sg.noticeCc.get f = none) ∧
    (t.iu.log = [] ∧ t.iu.nextSerial = 1 ∧ t.iu.discardedOpen = 0 ∧ (∀ l, t.iu.cursors.get l = 1) ∧ t.iu.reports = [] ∧
      t.iu.policy =
        [⟨.fault, 50, 50, true⟩, ⟨.warn, 50, 50, true⟩, ⟨.fault, 50, 50, true⟩, ⟨.fault, 50, 50, true⟩,
         ⟨.fault, 50, 50, true⟩, ⟨.fault, 50, 50, true⟩, ⟨.fault, 50, 50, true⟩, ⟨.fault, 50, 50, false⟩,
         ⟨.warn, 50, 50, false⟩, ⟨.warn, 50, 50, false⟩, ⟨.fault, 50, 50, false⟩, ⟨.fault, 50, 50, false⟩]) ∧
    (t.ru.holds = [] ∧ t.ru.counter = 1 ∧ t.ru.healthyPages = 0 ∧ t.ru.quota = 0) ∧
    (t.rc.spans = [] ∧ t.rc.discarded = 0 ∧ t.rc.writePos = 0 ∧ t.rc.stall = false ∧ t.rc.writes = [] ∧
      ∀ f, t.rc.encoders.get f = ⟨0, []⟩ ∧ t.rc.captions.get f = ⟨[], 0, false⟩) ∧
    (t.ac.state = .unmapped ∧ t.ac.bank = [] ∧ (∀ g, t.ac.groups.get g = ⟨.absent, 0, 0, false⟩) ∧ t.ac.test = none ∧
      (∀ g, t.ac.spares.get g = List.replicate 16 ⟨none, false⟩) ∧ t.ac.capture = none ∧ t.ac.damaged = [] ∧
      t.ac.scrub = none ∧ t.ac.access = none ∧ t.ac.exportRequest = none ∧ t.ac.scrubRequest = none ∧
      t.ac.testRequest = false ∧ t.ac.dram = [] ∧ t.ac.epoch = s.ac.epoch + 1) ∧
    (t.xu.jobs = [] ∧ t.xu.counter = 1 ∧ (∀ l, t.xu.endings.get l = none) ∧ t.xu.unsent = [] ∧ t.xu.xd = 0 ∧
      t.xu.stallTimer = 0 ∧ t.xu.buffer = []) ∧
    (t.li.replies = [] ∧ t.li.resetHeld = false) ∧
    (∀ l, (t.li.links.get l).slot = .empty ∧ (t.li.links.get l).flags = Classes.none ∧
      (t.li.links.get l).enables = Classes.none ∧ (t.li.links.get l).master = false ∧ (t.li.links.get l).dataOut = [] ∧
      alertActive (t.li.links.get l) = false ∧ t.li.alertLine l = false ∧
      (t.li.links.get l).role =
        (match (straps.get l).second, (straps.get l).first with
         | false, false => .observer
         | false, true => .scheduler
         | true, false => .auditor
         | true, true => .schedulerAuditor))) ∧
  (∀ (straps : Tri Straps) (s : State), ∃ t u, exec (.resetPin .held) s = .next t ∧ exec (.powerOn straps) s = .next u ∧
    t = { u with li := t.li } ∧ t.li.resetHeld = true ∧ t.li.replies = [] ∧
    ∀ l, t.li.links.get l = { u.li.links.get l with role := (s.li.links.get l).role } ∧ t.li.alertLine l = false)

/-- The invariants of the tier 3 statements hold of the state after reset. -/
def Obligations.InvariantsHoldAfterReset : Prop := Inv State.reset

/-! ## Control Links -/

/-- R195: straps give the role; the role stands until the next sampling; the rows each role reaches; the kind bytes. -/
def Obligations.StrapsFixTheRoles : Prop :=
  (∀ (straps : Tri Straps) (s t : State) (l : Link), exec (.powerOn straps) s = .next t ∨ exec (.resetPin (.released straps)) s = .next t →
    (t.li.links.get l).role =
      (match (straps.get l).second, (straps.get l).first with
       | false, false => .observer
       | false, true => .scheduler
       | true, false => .auditor
       | true, true => .schedulerAuditor)) ∧
  (∀ (c : Instr) (s t : State) (l : Link), (∀ x, c ≠ .powerOn x) → (∀ x, c ≠ .resetPin (.released x)) →
    exec c s = .next t →
    (t.li.links.get l).role = (s.li.links.get l).role) ∧
  (∀ (role : Role) (kind : Nat), reachesKind role kind = true ↔
    kind ≤ 12 ∨ (16 ≤ kind ∧ kind ≤ 20 ∧ (role = .scheduler ∨ role = .schedulerAuditor)) ∨
      (32 ≤ kind ∧ kind ≤ 47 ∧ (role = .auditor ∨ role = .schedulerAuditor))) ∧
  (∀ (l : Link) (kind : Byte) (payload : List Byte), kindListed kind = true → kind ≠ 0 →
    requestKind (requestOf l kind payload) = some (l, kind.toNat))

/-- R196, steps 1 to 3: UNKNOWN, ROLE and BAD_ARGUMENT answered by the Link Interface, with the kind echoed and no payload; nothing else changes. R190: no frame that arrives while the RESET pin
is held is received.
(That nothing is driven after a request: log entry 35; that the command RESET_PIN holds the pin, and what arrives then: log entry 51.) -/
def Obligations.RequestsRefusedAtTheLink : Prop :=
  (∀ (l : Link) (kind : Byte) (payload : List Byte) (s : State),
    12 < kind.toNat ∧ kind.toNat < 16 ∨ 20 < kind.toNat ∧ kind.toNat < 32 ∨ 47 < kind.toNat → payload.length ≤ 248 →
    s.li.resetHeld = false → exec (.unknownRequest l kind payload) s =
      .next { s with li := { s.li with
        links := s.li.links.update l (fun x => { x with slot := .ready kind ⟨.unknown, []⟩, dataOut := [] }) } }) ∧
  (∀ (c : Instr) (l : Link) (k : Nat) (s : State), requestKind c = some (l, k) → s.li.resetHeld = false →
    reachesKind (s.li.links.get l).role k = false → exec c s = .next { s with li := { s.li with
      links := s.li.links.update l (fun x => { x with slot := .ready (BitVec.ofNat 8 k) ⟨.role, []⟩, dataOut := [] }) } }) ∧
  (∀ (c : Instr) (l : Link) (k : Nat) (s : State), requestKind c = some (l, k) → s.mayAsk l k → lengthFits c = false →
    exec c s = .next { s with li := { s.li with
      links := s.li.links.update l
        (fun x => { x with slot := .ready (BitVec.ofNat 8 k) ⟨.badArgument, []⟩, dataOut := [] }) } }) ∧
  (∀ s : State, s.li.resetHeld = true →
    (∀ (c : Instr) (l : Link) (k : Nat), requestKind c = some (l, k) → exec c s = .next s) ∧
    (∀ (l : Link) (kind : Byte) (payload : List Byte), exec (.unknownRequest l kind payload) s = .next s) ∧
    (∀ (l : Link) (payload : List Byte) (n : Nat), exec (.fetch l payload n) s = .next s) ∧
    (∀ (l : Link) (bytes : List Byte), exec (.frameError l bytes) s = .next s))

/-- R193, R196 step 4: a request that its role and length let through leaves the slot WAITING on that one request, and its block's one reply sets out; no other link's slot
changes. ATTENTION_SET and ATTENTION_CLEAR (11, 12) are answered by the Link Interface. (The block takes the request at once and its reply travels: log entry 3.) -/
def Obligations.PassedRequestWaitsForItsReply : Prop :=
  ∀ (c : Instr) (l : Link) (k : Nat) (s : State), requestKind c = some (l, k) → k ≠ 11 → k ≠ 12 → s.mayAsk l k →
    lengthFits c = true →
    ∃ t r, exec c s = .next t ∧ (t.li.links.get l).slot = .waiting (BitVec.ofNat 8 k) s.li.nextRequest ∧
      t.li.replies = s.li.replies ++ [⟨l, s.li.nextRequest, r⟩] ∧ t.li.nextRequest = s.li.nextRequest + 1 ∧
      (∀ m, m ≠ l → (t.li.links.get m).slot = (s.li.links.get m).slot) ∧
      (∀ m, (t.li.links.get m).enables = (s.li.links.get m).enables ∧ (t.li.links.get m).master = (s.li.links.get m).master)

/-- R190, R191: which transactions are frame errors, and what a frame error does: slot, kind echo, LINK flag, and within a FETCH the error frame in the
clocks left. (Transactions without a byte are none: log entry 22.
What is driven in a transaction stands in dataOut: log entry 35.) -/
def Obligations.FrameErrorReplacesTheSlot : Prop :=
  (∀ bytes : List Byte, frameGood bytes = true ↔
    ∃ kind len rest, bytes = kind :: len :: rest ∧ len.toNat ≤ 248 ∧
      (kind ≠ 0 → bytes.length = 4 + len.toNat) ∧ (kind = 0 → 4 + len.toNat ≤ bytes.length) ∧
      (bytes.drop (2 + len.toNat)).take 2 = beBytes 2 (crc16 (bytes.take (2 + len.toNat))).toNat) ∧
  (∀ (l : Link) (bytes : List Byte) (s : State), bytes ≠ [] → frameGood bytes = false → s.li.resetHeld = false →
    ∃ t out, exec (.frameError l bytes) s = .next t ∧
      t = { s with li := { s.li with
        links := s.li.links.update l (fun x =>
          { x with slot := .ready (bytes.headD 0) ⟨.frameError, []⟩, flags := { x.flags with link := true }, dataOut := out }) } } ∧
      (bytes.headD 0 ≠ 0 → out = []) ∧
      (∀ k, bytes = [k] → out = []) ∧
      (∀ len rest, bytes = 0 :: len :: rest →
        out = (withCrc [4, 0, 0, 0]).take (bytes.length - (4 + len.toNat))))

/-- R194: what FETCH sends in each state of the slot, as far as the host clocks; the slot does not change.
(The bytes driven stand in dataOut: log entry 35.) -/
def Obligations.FetchSendsTheSlot : Prop :=
  ∀ (l : Link) (payload : List Byte) (n : Nat) (s : State), payload.length ≤ 248 → s.li.resetHeld = false →
    exec (.fetch l payload n) s =
      .next { s with li := { s.li with
        links := s.li.links.update l (fun x =>
          { x with dataOut :=
            (match x.slot with
             | .empty => withCrc [3, 0, 0, 0]
             | .waiting kind _ => withCrc [3, kind, 0, 0]
             | .ready kind r =>
               withCrc ([BitVec.ofNat 8 r.status.code, kind] ++ beBytes 2 r.payload.length ++ r.payload)).take n }) } }

/-- R193: an arriving reply makes the slot READY only if the slot waits on its request, and is discarded otherwise. (Replies arrive in any order: log entry 7.) -/
def Obligations.ReplyArrivesForItsRequest : Prop :=
  ∀ (s : State) (a b : List ReplyInFlight) (r : ReplyInFlight), s.li.replies = a ++ r :: b →
    exec (.replyArrival a.length) s =
      .next { s with li := { s.li with
        replies := a ++ b
        links := s.li.links.update r.link (fun x =>
          { x with slot :=
            (match x.slot with
             | .waiting kind m => if m = r.request then .ready kind r.reply else .waiting kind m
             | y => y) }) } }

/-- R199, R200: ATTENTION_CLEAR and ATTENTION_SET act on the requesting link alone; when ALERT is active, and that it stays released while the RESET pin is held (R201). (A clear byte with bit 7 set
names no class more and is answered OK: log entry 41; action 0 is set and 1 is clear: log entry 19.
That nothing is driven after them: log entry 35; that the pin is held by a command: log entry 51.
That a flag of a lapse or stall still due is not yet set then is the model's choice, log entry 4.) -/
def Obligations.AttentionActsOnItsLinkAlone : Prop :=
  (∀ (l : Link) (b : Byte) (s : State), s.li.resetHeld = false → ∃ t x, exec (.attentionClear l (.fits b)) s = .next t ∧
    t = { s with li := { s.li with links := s.li.links.set l x } } ∧
    x = { s.li.links.get l with
      flags := (s.li.links.get l).flags.without (classesOf b)
      slot := .ready 12 ⟨.ok, [.byte ((s.li.links.get l).flags.without (classesOf b)).toNat]⟩
      dataOut := [] }) ∧
  (∀ (l : Link) (a : AttentionSetArgs) (s : State), s.li.resetHeld = false → ∃ t x, exec (.attentionSet l (.fits a)) s = .next t ∧
    t = { s with li := { s.li with links := s.li.links.set l x } } ∧ x.flags = (s.li.links.get l).flags ∧
    x.role = (s.li.links.get l).role ∧ x.dataOut = [] ∧
    (if 8 < a.target.toNat ∨ 1 < a.action.toNat then
      x.enables = (s.li.links.get l).enables ∧ x.master = (s.li.links.get l).master ∧ x.slot = .ready 11 ⟨.badArgument, []⟩
     else
      (∀ i, i < 7 → x.enables.toNat.testBit i =
        (if a.target.toNat = i ∨ a.target.toNat = 8 then decide (a.action = 0) else (s.li.links.get l).enables.toNat.testBit i)) ∧
      x.master = (if 7 ≤ a.target.toNat then decide (a.action = 0) else (s.li.links.get l).master) ∧
      x.slot = .ready 11 ⟨.ok, [.byte x.enables.toNat, .choice x.master]⟩)) ∧
  (∀ x : LinkState, alertActive x = true ↔
    (x.master = true ∧ ∃ i, i < 7 ∧ x.flags.toNat.testBit i = true ∧ x.enables.toNat.testBit i = true) ∨
      x.flags.archive = true ∨ x.flags.link = true) ∧
  (∀ (li : Li) (l : Link), li.alertLine l = true ↔ li.resetHeld = false ∧ alertActive (li.links.get l) = true)

/-- R198: STATUS changes nothing but the reply slot, and its payload is the items of every block in the order of R198, with each field in its form of R197: link (R199, R200), ticks, schedule (R68), segments
(R99), incidents (R113), holds (R134), recording (R151), archive (R176), exports (R187, R188). (One STATUS shows every block at one moment: log entry 3; VACANT is an absent owner: log entry 50; fixed
runs have no number before them: log entry 48; the open forms of fields: log entry 20. With no lapse and no stall due, log entry 4.
A serial or count is shown by its low bytes: log entry 10; LOOKUP has its place among the phases: log entry 34.) -/
def Obligations.StatusReportsAndChangesNothing : Prop :=
  ∀ (l : Link) (s : State), s.mayAsk l 1 → s.su.lapseDue = false → s.xu.stallDue = false →
    ∃ head ticks owner more : List Wire, exec (.status l (.fits ())) s =
        .next { s with li := s.li.passed l 1 ⟨.ok, (head ++ ticks) ++ (owner ++ more)⟩ } ∧
      head = [.byte l.val, .byte (s.li.links.get l).role.place, .byte (s.li.links.get l).flags.toNat,
        .byte (s.li.links.get l).enables.toNat, .choice (s.li.links.get l).master, .choice (alertActive (s.li.links.get l)),
        .tick s.fiu.openTick] ∧
      (s.fiu.openTick = 0 → s.fiu.frontier = none → ticks = [.byte 0, .byte 0]) ∧
      (∀ c, s.fiu.openTick = c + 1 → s.fiu.frontier = none → ticks = [.byte 1, .tick c, .byte 0]) ∧
      (∀ c f, s.fiu.openTick = c + 1 → s.fiu.frontier = some f → ticks = [.byte 1, .tick c, .byte 1, .tick f]) ∧
      (s.su.owner = none → owner = [.byte 0]) ∧ (∀ o, s.su.owner = some o → owner = [.byte 1, .byte o.val]) ∧
      ∃ su sg iu ru rc ac xu : List Wire, more = [su, sg, iu, ru, rc, ac, xu].flatten ∧
      (∃ projected : List Wire,
        (s.su.anchor = none ∨ s.fiu.openTick = 0 → projected = [.byte 0]) ∧
        (∀ a c, s.su.anchor = some a → s.fiu.openTick = c + 1 → projected = [.byte 1, .long (a.project c)]) ∧
        su = List.flatten
          [match s.su.anchor with | none => [.byte 0] | some a => [.byte 1, .tick a.tick, .long a.time],
           projected, [.signedWord s.su.limit],
           if s.su.owner = none then [.byte 0] else [.byte 1, .word s.su.timer],
           match s.su.handed with | none => [.byte 0] | some t => [.byte 1, .tick t],
           (List.range 8).map (fun i => .word (s.su.lists.get (Fin.ofNat 8 i)).length), [.word s.su.recent.length]]) ∧
      sg = [.word s.sg.table.length, .word (s.sg.table.filter (fun e => decide (e.2.state ≠ .closed))).length,
        .word (s.sg.table.filter (fun e => decide (e.2.verdict = some .pending))).length, .tick s.sg.closeSeq] ∧
      iu = [.word s.iu.log.length, .word (s.iu.log.filter (fun x => !x.reviewed)).length, .long (s.iu.nextSerial - 1),
        .long s.iu.discardedOpen] ∧
      ru = [.word s.ru.holds.length, .long (s.ru.holds.map (fun e => e.2.last - e.2.first + 1)).sum, .long s.ru.quota,
        .choice (decide (s.ru.quota < (s.ru.holds.map (fun e => e.2.last - e.2.first + 1)).sum))] ∧
      rc = List.flatten
        [[.word s.rc.spans.length],
         match s.rc.spans.head? with | none => [.byte 0] | some x => [.byte 1, .tick x.firstTick],
         match s.rc.spans.getLast? with | none => [.byte 0] | some x => [.byte 1, .tick (x.firstTick + x.length - 1)],
         [.choice s.rc.stall]] ∧
      ac = [.byte s.ac.state.place,
        .word (s.ac.bank.filter (fun g => decide ((s.ac.groups.get g).state = .healthy))).length,
        .word (s.ac.bank.filter (fun g => decide ((s.ac.groups.get g).state = .faulted))).length,
        .word s.ac.damaged.length, .choice s.ac.capture.isSome] ∧
      (∃ active queued : List Wire,
        (s.xu.jobs = [] → active = [.byte 0] ∧ queued = []) ∧
        (∀ j rest, s.xu.jobs = j :: rest →
          active = [.byte 1, .long j.number, .byte j.link.val, .byte (maskValue j.mask), .tick j.first, .tick j.last, .byte j.pin,
            .byte j.phase.place, .tick j.tick, .byte (j.feed.getD 0).val, .choice j.abort, .long j.sent, .word s.xu.stallTimer] ∧
          queued = (rest.map (fun k =>
            [.long k.number, .byte k.link.val, .byte (maskValue k.mask), .tick k.first, .tick k.last])).flatten) ∧
        xu = List.flatten
          [[.word s.xu.jobs.length], active, [.byte (s.xu.jobs.length - 1)], queued,
           ((List.range 3).map (fun i => match s.xu.endings.get (Fin.ofNat 3 i) with
            | none => [.byte 0]
            | some x => [.byte 1, .long x.job, .byte x.status.place, .long x.sent, .long x.damaged, .long x.unavailable,
                .long x.absent])).flatten])

/-- R190, R196, R197: the frame of every request, with every field at every value, decodes to the request. (ARCHIVE_MAP's payload is its list's bytes, at any length: log entry 18.) -/
def Obligations.EncodedRequestsDecode : Prop :=
  ∀ (c : Instr) (bytes : List Byte), c.wellFormed = true → encodeRequest c = some bytes →
    ∃ l, (∃ k, requestKind c = some (l, k)) ∧ decodeTransaction l bytes = some c

/-! ## Station time and schedule authority -/

/-- R64: the three rows of SCHEDULE_CLAIM; SCHEDULE is flagged on a grant (R68). (With no lapse due, log entry 4.) -/
def Obligations.ClaimGrantsAVacantSchedule : Prop :=
  ∀ (l : Link) (s : State), s.mayAsk l 16 → s.su.lapseDue = false →
    (s.su.owner = none → exec (.scheduleClaim l (.fits ())) s = .next { s with
      su := { s.su with owner := some l, timer := 0 }
      li := (s.li.passed l 16 ⟨.ok, [.byte l.val]⟩).raiseAll .schedule }) ∧
    (s.su.owner = some l → exec (.scheduleClaim l (.fits ())) s = .next { s with li := s.li.passed l 16 ⟨.ok, [.byte l.val]⟩ }) ∧
    (∀ o, s.su.owner = some o → o ≠ l →
      exec (.scheduleClaim l (.fits ())) s = .next { s with li := s.li.passed l 16 ⟨.owned, [.byte o.val]⟩ })

/-- R65: SCHEDULE_YIELD from the owner and from any other link. (With no lapse due, log entry 4; that the stopped timer stands at 0 is the model's choice, log entry 42.) -/
def Obligations.YieldVacatesTheSchedule : Prop :=
  ∀ (l : Link) (s : State), s.mayAsk l 17 → s.su.lapseDue = false →
    (s.su.owner = some l → exec (.scheduleYield l (.fits ())) s = .next { s with
      su := { s.su with owner := none, timer := 0 }
      li := (s.li.passed l 17 ⟨.ok, []⟩).raiseAll .schedule }) ∧
    (s.su.owner ≠ some l → exec (.scheduleYield l (.fits ())) s = .next { s with li := s.li.passed l 17 ⟨.notOwner, []⟩ })

/-- R61 to R63: TIME_SYNC's refusals change nothing; an accepted one sets, keeps or steps the anchor and restarts the timer. At a step every entry of every list is re-resolved, of those of one level that come to share a tick on a feed the one that
was later before survives, the lists are in order again, TIME_STEP is reported, and the counts of R63 are answered. (The bytes of the outcome, 0 set, 1 kept, 2 stepped, and the counts of 0 when the anchor is set: log entry
20. Each count is taken over the list as it stood before the collisions, so that one entry may stand in several: the model's reading, log entry 27. That an entry is clamped by the handed-over tick also while F is
undefined is the model's choice, log entry 52. With no lapse due, log entry 4.) -/
def Obligations.TimeSyncSetsKeepsOrSteps : Prop :=
  (∀ (l : Link) (b : BitVec 32) (s : State) (c : Nat), s.mayAsk l 18 → s.su.lapseDue = false → s.su.owner = some l →
     b.toNat < 86400000 → s.fiu.openTick = c + 1 →
     (s.su.anchor = none → exec (.timeSync l (.fits b)) s = .next { s with
       su := { s.su with anchor := some ⟨c, b.toNat⟩, timer := 0 }
       li := s.li.passed l 18 ⟨.ok, [.byte 0, .signedTick 0, .word 0, .word 0, .word 0]⟩ }) ∧
     (∀ a o, s.su.anchor = some a → o = dayDifference b.toNat (a.project c) → -200 ≤ o → o ≤ 200 →
       exec (.timeSync l (.fits b)) s = .next { s with
         su := { s.su with timer := 0 }
         li := s.li.passed l 18 ⟨.ok, [.byte 1, .signedTick o]⟩ }) ∧
     (∀ a o, s.su.anchor = some a → o = dayDifference b.toNat (a.project c) → o < -200 ∨ 200 < o →
       ∃ t moved late gone, ∃ stepped : Entry → Entry, exec (.timeSync l (.fits b)) s = .next t ∧
         t = { s with
           su := { s.su with anchor := some ⟨c, b.toNat⟩, timer := 0, lists := t.su.lists }
           iu := { s.iu with reports := s.iu.reports ++
             [⟨.timeStep, none, none, none, none, c, c, c, some o, some 200, false⟩] }
           li := s.li.passed l 18 ⟨.ok, [.byte 2, .signedTick o, .word moved, .word late, .word gone]⟩ } ∧
         (∀ e0, stepped e0 = { e0 with tick := (stepped e0).tick, late := (stepped e0).late } ∧
           (match s.su.handed with
            | some h =>
              if s.resolveTime ⟨c, b.toNat⟩ e0.time ≤ h then (stepped e0).tick = h + 1 ∧ (stepped e0).late = true
              else ((stepped e0).tick : Int) = s.resolveTime ⟨c, b.toNat⟩ e0.time ∧ (stepped e0).late = e0.late
            | none => (stepped e0).tick = (s.resolveTime ⟨c, b.toNat⟩ e0.time).toNat ∧ (stepped e0).late = e0.late)) ∧
         (∀ f, (∀ e ∈ t.su.lists.get f, ∃ e0 ∈ s.su.lists.get f, e = stepped e0) ∧
           ((s.su.lists.get f).Pairwise (fun x y => x.rank < y.rank) →
             (t.su.lists.get f).Pairwise (fun x y => x.rank < y.rank) ∧
             ∀ e0 ∈ s.su.lists.get f,
               (∀ e1 ∈ s.su.lists.get f, e1.kind.level = e0.kind.level → (stepped e1).tick = (stepped e0).tick → e1.tick ≤ e0.tick) →
               stepped e0 ∈ t.su.lists.get f)) ∧
         moved = ((List.range 8).map (fun i =>
           ((s.su.lists.get (Fin.ofNat 8 i)).filter (fun e => decide ((stepped e).tick ≠ e.tick))).length)).sum ∧
         late = ((List.range 8).map (fun i =>
           ((s.su.lists.get (Fin.ofNat 8 i)).filter (fun e =>
             match s.su.handed with
             | some h => decide (s.resolveTime ⟨c, b.toNat⟩ e.time ≤ h)
             | none => false)).length)).sum ∧
         gone = ((List.range 8).map (fun i =>
           (s.su.lists.get (Fin.ofNat 8 i)).length - (t.su.lists.get (Fin.ofNat 8 i)).length)).sum)) ∧
  (∀ (l : Link) (b : BitVec 32) (s : State), s.mayAsk l 18 → s.su.lapseDue = false →
    (s.su.owner ≠ some l → exec (.timeSync l (.fits b)) s = .next { s with li := s.li.passed l 18 ⟨.notOwner, []⟩ }) ∧
    (s.su.owner = some l → 86400000 ≤ b.toNat →
      exec (.timeSync l (.fits b)) s = .next { s with li := s.li.passed l 18 ⟨.badArgument, []⟩ }) ∧
    (s.su.owner = some l → b.toNat < 86400000 → s.fiu.openTick = 0 →
      exec (.timeSync l (.fits b)) s = .next { s with li := s.li.passed l 18 ⟨.wrongState, []⟩ }))

/-- R59, R60: the range of day differences and projected times, and the nearest tick with a halfway value to the smaller. -/
def Obligations.StationTimesResolveToNearestTick : Prop :=
  (∀ u v : Nat, -43200000 ≤ dayDifference u v ∧ dayDifference u v ≤ 43199999 ∧
    (86400000 : Int) ∣ dayDifference u v - ((u : Int) - v)) ∧
  (∀ (a : Anchor) (t : Nat), a.project t < 86400000 ∧
    (86400000 : Int) ∣ (a.project t : Int) - ((a.time : Int) + 100 * ((t : Int) - a.tick))) ∧
  (∀ (a : Anchor) (time : Nat), ∃ n : Int, a.resolve time = a.tick + n ∧
    -50 < dayDifference time a.time - 100 * n ∧ dayDifference time a.time - 100 * n ≤ 50 ∧ -432000 ≤ n ∧ n ≤ 432000) ∧
  (∀ (s : State) (a : Anchor) (time : Nat), (s.fiu.frontier = none → s.resolveTime a time = max (a.resolve time) s.fiu.baseTick) ∧
    (∀ f, s.fiu.frontier = some f → s.resolveTime a time = a.resolve time))

/-- R70 to R72: an accepted announcement stands on every feed of its mask at its entry tick, replacing the entry of its level there; it is late when it resolves at or
before the handed-over tick, and LATE_BOUNDARY is then reported once; no other list changes. The reply names the entry tick, the resolved tick, LATE and what each feed did. (That
the marks of the feeds are a list after its number, inserted 0 and replaced 1: log entry 20. That six bytes of no known value stand for a resolved tick before tick 0: log
entry 17. That it is late by the handed-over tick also between the hand-over of B0 and the end of its settlement, while F is undefined, is
the model's choice, log entry 52.
With no lapse due, log entry 4.) -/
def Obligations.AnnouncementStandsOnEveryFeed : Prop :=
  ∀ (l : Link) (a : AnnounceArgs) (s : State) (x : Announcement) (an : Anchor) (r : Int) (e : Entry),
    s.mayAsk l 19 → s.su.lapseDue = false → s.su.owner = some l → announcementOf a = some x → s.su.anchor = some an →
    r = s.resolveTime an x.time → r < s.fiu.openTick + 36000 →
    e.kind = x.kind → e.segmentId = x.segmentId → e.limitSet = x.limitSet → e.requirement = x.requirement → e.time = x.time →
    (match s.su.handed with
     | some h => if r ≤ h then e.tick = h + 1 ∧ e.late = true else (e.tick : Int) = r ∧ e.late = false
     | none => e.tick = r.toNat ∧ e.late = false) →
    (∀ f ∈ x.mask, (s.su.lists.get f).length < 8 ∨ ∃ y ∈ s.su.lists.get f, y.kind.level = e.kind.level ∧ y.tick = e.tick) →
    ∃ t reply, exec (.announce l (.fits a)) s = .next t ∧
      t = { s with
        su := { s.su with lists := t.su.lists }
        iu := { s.iu with reports := s.iu.reports ++
          (if e.late then [⟨.lateBoundary, x.mask.head?, none, some x.segmentId, some (.announcement x.kind), e.tick, e.tick, e.tick,
            some ((e.tick : Int) - r), none, false⟩] else []) }
        li := s.li.passed l 19 reply } ∧
      reply.status = (if e.late then .clamped
        else if ∃ f ∈ x.mask, ∃ y ∈ s.su.lists.get f, y.kind.level = e.kind.level ∧ y.tick = e.tick then .replaced else .ok) ∧
      (∃ resolved, reply.fields = [.tick e.tick, resolved, .choice e.late, .byte x.mask.length]
          ++ x.mask.map (fun f => .byte (if ∃ y ∈ s.su.lists.get f, y.kind.level = e.kind.level ∧ y.tick = e.tick then 1 else 0)) ∧
        (0 ≤ r → resolved = .tick r.toNat) ∧ (r < 0 → ∃ b : BitVec 48, resolved = .openTick b)) ∧
      (∀ f ∈ x.mask, ∀ y, y ∈ t.su.lists.get f ↔
        y = e ∨ (y ∈ s.su.lists.get f ∧ ¬ (y.kind.level = e.kind.level ∧ y.tick = e.tick))) ∧
      (∀ f, f ∉ x.mask → t.su.lists.get f = s.su.lists.get f)

/-- R69, R70, R72: the refusals of ANNOUNCE, in their order; none of them changes a list, raises an incident or does anything but answer. (The entry tick by which a list
overflows follows the handed-over tick also while F is undefined: the model's choice, log entry 52.
Letters of a tag are the codes 97 to 122: log entry 21. With no lapse due, log entry 4.) -/
def Obligations.RefusedAnnouncementChangesNothing : Prop :=
  ∀ (l : Link) (a : AnnounceArgs) (s : State), s.mayAsk l 19 → s.su.lapseDue = false →
    (s.su.owner ≠ some l → exec (.announce l (.fits a)) s = .next { s with li := s.li.passed l 19 ⟨.notOwner, []⟩ }) ∧
    (s.su.owner = some l → a.kind.toNat > 4 ∨ maskFeeds a.mask = [] ∨ 86400000 ≤ a.time.toNat ∨ 7 < a.limitSet.toNat ∨
        (a.requirement.form = 2 ∧ tagValid a.requirement.tag = false) →
      exec (.announce l (.fits a)) s = .next { s with li := s.li.passed l 19 ⟨.badArgument, []⟩ }) ∧
    (s.su.owner = some l → (announcementOf a).isSome → s.su.anchor = none →
      exec (.announce l (.fits a)) s = .next { s with li := s.li.passed l 19 ⟨.noTime, []⟩ }) ∧
    (∀ x an, s.su.owner = some l → announcementOf a = some x → s.su.anchor = some an →
      (s.fiu.openTick : Int) + 35999 < s.resolveTime an x.time →
      exec (.announce l (.fits a)) s = .next { s with li := s.li.passed l 19 ⟨.tooFar, []⟩ }) ∧
    (∀ x an f, s.su.owner = some l → announcementOf a = some x → s.su.anchor = some an →
      s.resolveTime an x.time ≤ (s.fiu.openTick : Int) + 35999 →
      x.mask.find? (fun f => overflows (s.su.lists.get f) (x.entry s.su.handed (s.resolveTime an x.time))) = some f →
      exec (.announce l (.fits a)) s = .next { s with li := s.li.passed l 19 ⟨.full, [.byte f.val]⟩ })

/-- R73: WITHDRAW's refusals, what it removes and what it answers. (With no lapse due, log entry 4; the counts stand as a list, log entry 20.) -/
def Obligations.WithdrawRemovesNamedEntries : Prop :=
  ∀ (l : Link) (a : WithdrawArgs) (s : State), s.mayAsk l 20 → s.su.lapseDue = false →
    (s.su.owner ≠ some l → exec (.withdraw l (.fits a)) s = .next { s with li := s.li.passed l 20 ⟨.notOwner, []⟩ }) ∧
    (s.su.owner = some l → maskFeeds a.mask = [] ∨ announceKindOf a.kind = none →
      exec (.withdraw l (.fits a)) s = .next { s with li := s.li.passed l 20 ⟨.badArgument, []⟩ }) ∧
    (∀ k, s.su.owner = some l → maskFeeds a.mask ≠ [] → announceKindOf a.kind = some k →
      ((∃ f ∈ maskFeeds a.mask, ∃ e ∈ s.su.lists.get f, e.segmentId = a.segmentId.toNat ∧ e.kind = k) →
        ∃ t, exec (.withdraw l (.fits a)) s = .next t ∧
          t = { s with
            su := { s.su with lists := t.su.lists }
            li := s.li.passed l 20 ⟨.ok, .byte (maskFeeds a.mask).length ::
              (maskFeeds a.mask).map (fun f => .word ((s.su.lists.get f).length - (t.su.lists.get f).length))⟩ } ∧
          ∀ f, t.su.lists.get f =
            if f ∈ maskFeeds a.mask then (s.su.lists.get f).filter (fun e => !(e.segmentId = a.segmentId.toNat ∧ e.kind = k))
            else s.su.lists.get f) ∧
      ((∀ f ∈ maskFeeds a.mask, ∀ e ∈ s.su.lists.get f, ¬ (e.segmentId = a.segmentId.toNat ∧ e.kind = k)) →
        exec (.withdraw l (.fits a)) s = .next { s with
          li := s.li.passed l 20
            ⟨if (a.segmentId.toNat, k) ∈ s.su.recent then .tooLate else .notFound, []⟩ }))

/-- R66, R68, R95: a lapse that is due vacates the schedule, reports SCHEDULE_LOST, flags SCHEDULE and marks the segments that are OPEN or SUSPENDED. (That the lapse is a step of its own after the close that made it due: log entry 4; that the stopped timer stands at 0 is the
model's choice, log entry 42.) -/
def Obligations.HeartbeatLapseVacatesTheSchedule : Prop :=
  ∀ s : State, s.su.lapseDue = true → ∃ t, exec .heartbeatLapse s = .next t ∧
    t = { s with
      su := { s.su with owner := none, timer := 0, lapseDue := false }
      sg := { s.sg with table := t.sg.table }
      iu := { s.iu with reports := s.iu.reports ++
        [⟨.scheduleLost, none, none, none, none, s.fiu.openTick - 1, s.fiu.openTick - 1, s.fiu.openTick - 1,
          some (s.su.timer : Int), some (s.su.limit : Int), false⟩] }
      li := s.li.raiseAll .schedule } ∧
    t.sg.table.map Prod.fst = s.sg.table.map Prod.fst ∧
    ∀ i r, tableGet s.sg.table i = some r →
      tableGet t.sg.table i =
        some (if r.state = .closed then r else { r with flags := { r.flags with scheduleUnconfirmed := true } })

/-- R67: HEARTBEAT_SET brings the limit into 20 to 600 and keeps the running timer, which counts closes while a link owns the schedule and stands still while none does; resets and restarts. (With no lapse due, log entry 4. The same entry is why a close at which the timer reaches the limit leaves the owner
as it is with the lapse due: R66 vacates the schedule at that close, and the model does so in the step that follows it.) -/
def Obligations.HeartbeatLimitInItsRange : Prop :=
  (∀ (l : Link) (b : BitVec 16) (s : State), s.mayAsk l 35 → s.su.lapseDue = false → ∃ n : Nat,
    exec (.heartbeatSet l (.fits b)) s = .next { s with
      su := { s.su with limit := n }
      li := s.li.passed l 35 ⟨if (n : Int) = b.toInt then .ok else .clamped, [.signedWord n]⟩ } ∧
    (n : Int) = (if b.toInt < 20 then 20 else if 600 < b.toInt then 600 else b.toInt)) ∧
  (∀ (xbsy : Bool) (s : State) (o : Link), s.fiu.periods = 4800 → s.su.lapseDue = false → s.su.owner = some o →
    ∃ t, exec (.tickClose xbsy) s = .next t ∧ t.su.timer = s.su.timer + 1 ∧ t.su.owner = some o ∧
      (t.su.lapseDue = true ↔ s.su.limit ≤ s.su.timer + 1)) ∧
  (∀ (xbsy : Bool) (s : State), s.fiu.periods = 4800 → s.su.lapseDue = false → s.su.owner = none →
    ∃ t, exec (.tickClose xbsy) s = .next t ∧ t.su.timer = s.su.timer ∧ t.su.owner = none ∧ t.su.lapseDue = false) ∧
  (∀ (l : Link) (s : State), s.mayAsk l 42 → ∃ t, exec (.measureRestart l (.fits ())) s = .next t ∧ t.su.limit = s.su.limit) ∧
  (∀ (l : Link) (s : State), s.mayAsk l 46 → ∃ t, exec (.archiveReset l (.fits ())) s = .next t ∧ t.su.limit = s.su.limit)

/-- R71, R75: the Pending Lists stay in order, bounded, and ahead of the handed-over tick, at every step from every state in which they are so. (That an announcement cannot be
placed at B0 once B0 has been handed over is the model's choice, log entry 52.) -/
def Obligations.PendingListsStayInOrder : Prop :=
  ∀ s t : State, scheduleInOrder s → step s = .next t → scheduleInOrder t

/-- R64: the schedule owner has the scheduler role, at every step from every state in which that is so. -/
def Obligations.OwnerKeepsTheSchedulerRole : Prop :=
  ∀ s t : State, ownerIsScheduler s → step s = .next t → ownerIsScheduler t

/-! ## Feeds and ticks -/

/-- R1, R2, R7, R16 to R18, R138, R139: what a word clock period does to the counter, the lock trackers and the broken marks, that a feed that is not effectively locked keeps filters and accumulators, that each
channel of one that is takes its sample through both filter stages into its accumulator (from zero state when the feed was not locked before), and its proxy encoder takes the source sample and at the sixth period
of a group compands the decimated sample. Nothing else changes.
(That the sixth period of a group appends the code of the sum it has, also when a period of the group gave no source sample, is the model's choice, log entry 46.) -/
def Obligations.WordClockPeriodTracksLocks : Prop :=
  ∀ (frames : Oct LaneFrame) (s : State), s.fiu.periods < 4800 → ∃ t, exec (.wordClockPeriod frames) s = .next t ∧
    t = { s with
      fiu := { s.fiu with
        periods := s.fiu.periods + 1, lanes := t.fiu.lanes, heard := t.fiu.heard, broken := t.fiu.broken, filters := t.fiu.filters }
      lm := { s.lm with energies := t.lm.energies }
      rc := { s.rc with encoders := t.rc.encoders } } ∧
    ∀ f,
      (frames.get f = none → t.fiu.lanes.get f = ⟨false, 0⟩) ∧
      (∀ x, frames.get f = some x → (s.fiu.lanes.get f).locked = true → t.fiu.lanes.get f = s.fiu.lanes.get f) ∧
      (∀ x, frames.get f = some x → (s.fiu.lanes.get f).locked = false → (s.fiu.lanes.get f).run < 47 →
        t.fiu.lanes.get f = ⟨false, (s.fiu.lanes.get f).run + 1⟩) ∧
      (∀ x, frames.get f = some x → (s.fiu.lanes.get f).locked = false → (s.fiu.lanes.get f).run = 47 →
        t.fiu.lanes.get f = ⟨true, 48⟩) ∧
      (t.fiu.heard.get f = true ↔ (s.fiu.settings.get f).enabled = true ∧ (t.fiu.lanes.get f).locked = true) ∧
      (t.fiu.broken.get f = true ↔ s.fiu.broken.get f = true ∨ t.fiu.heard.get f = false) ∧
      (t.fiu.heard.get f = false →
        t.fiu.filters.get f = s.fiu.filters.get f ∧ t.lm.energies.get f = s.lm.energies.get f ∧
        ((s.fiu.periods + 1) % 6 ≠ 0 → t.rc.encoders.get f = s.rc.encoders.get f)) ∧
      (∀ x, frames.get f = some x → t.fiu.heard.get f = true →
        (t.lm.energies.get f).length = (s.lm.energies.get f).length ∧
        (∀ (k : Nat) (z : ChannelFilter) (e : Nat) (smp : BitVec 24),
          (if s.fiu.heard.get f = true then (s.fiu.filters.get f)[k]? = some z else z = ⟨⟨0, 0, 0, 0⟩, ⟨0, 0, 0, 0⟩⟩) →
          (s.lm.energies.get f)[k]? = some e →
          (match (s.fiu.settings.get f).layout with
           | .mono => [x.s1]
           | .stereo => [x.s1, x.s2]
           | .surround => [x.s1, x.s2, x.s3, x.s4, x.s5, x.s6])[k]? = some smp →
          ∃ y w : Int,
            y = max (-33554431) (min 33554431 ((776920929 * smp.toInt - 1320977322 * z.stage1.x1 + 574673604 * z.stage1.x2
              + 877801121 * z.stage1.y1 - 371537219 * z.stage1.y2 + 2 ^ 28) / 2 ^ 29)) ∧
            w = max (-33554431) (min 33554431 ((533722701 * y - 1067445402 * z.stage2.x1 + 533722701 * z.stage2.x2
              + 1067436275 * z.stage2.y1 - 530583617 * z.stage2.y2 + 2 ^ 28) / 2 ^ 29)) ∧
            (t.fiu.filters.get f)[k]? = some ⟨⟨smp.toInt, z.stage1.x1, y, z.stage1.y1⟩, ⟨y, z.stage2.x1, w, z.stage2.y1⟩⟩ ∧
            (t.lm.energies.get f)[k]? = some (e + w.natAbs ^ 2 / 16)) ∧
        ∃ source : Int,
          ((s.fiu.settings.get f).layout = .mono → source = x.s1.toInt) ∧
          ((s.fiu.settings.get f).layout ≠ .mono →
            2 * source ≤ x.s1.toInt + x.s2.toInt ∧ x.s1.toInt + x.s2.toInt < 2 * source + 2) ∧
          ((s.fiu.periods + 1) % 6 ≠ 0 →
            t.rc.encoders.get f = ⟨(s.rc.encoders.get f).sum + source, (s.rc.encoders.get f).codes⟩) ∧
          ((s.fiu.periods + 1) % 6 = 0 → ∃ (code : Byte) (d : Int) (v m : Nat),
            t.rc.encoders.get f = ⟨0, (s.rc.encoders.get f).codes ++ [code]⟩ ∧
            6 * d ≤ (s.rc.encoders.get f).sum + source ∧ (s.rc.encoders.get f).sum + source < 6 * d + 6 ∧
            v = min d.natAbs 8388607 / 4096 ∧ code.toNat = (if d < 0 then 128 else 0) + m ∧ (v < 16 → m = v) ∧
            ∀ g, 1 ≤ g → 2 ^ (g + 3) ≤ v → v < 2 ^ (g + 4) → m = 16 * g + (v / 2 ^ (g - 1) - 16)))

/-- Log entry 5 (the model's reading of R1, R2, R40, R41): LANE_LOCK, CAPTION_STALE and CARRIAGE_ABSENT are parts of the period or close they belong to. Each does its part, and the
whole then comes out as if the part had not been taken first. -/
def Obligations.EarlyStepsArePartsOfTheirWhole : Prop :=
  (∀ (f : Feed) (frames : Oct LaneFrame) (s : State) (x : Samples), s.fiu.periods < 4800 → (s.fiu.lanes.get f).locked = false →
    (s.fiu.lanes.get f).run = 47 → s.fiu.heard.get f = false → frames.get f = some x →
    ∃ u, exec (.laneLock f) s = .next u ∧ u.fiu.lanes.get f = ⟨true, 48⟩ ∧
      ((s.fiu.settings.get f).enabled = true → u.fiu.filters.get f = zeroFilters (s.fiu.settings.get f).layout) ∧
      u = { s with fiu := { s.fiu with lanes := u.fiu.lanes, filters := u.fiu.filters } } ∧
      (∀ g, g ≠ f → u.fiu.lanes.get g = s.fiu.lanes.get g ∧ u.fiu.filters.get g = s.fiu.filters.get g) ∧
      exec (.wordClockPeriod frames) u = exec (.wordClockPeriod frames) s) ∧
  (∀ (f : Feed) (tag : Tag) (xbsy : Bool) (s : State), s.fiu.periods = 4800 → (s.cc.feeds.get f).state = .shown tag →
    (s.cc.feeds.get f).age = 299 →
    ∃ u, exec (.captionStale f) s = .next u ∧
      u = { s with cc := ⟨s.cc.feeds.set f { s.cc.feeds.get f with state := .stale, age := 300 }⟩ } ∧
      exec (.tickClose xbsy) u = exec (.tickClose xbsy) s) ∧
  (∀ (f : Feed) (xbsy : Bool) (s : State), s.fiu.periods = 4800 → (s.cc.feeds.get f).carriage = true →
    (∀ p, (s.cc.feeds.get f).lastPacket = some p → p + 50 ≤ s.fiu.openTick) →
    ∃ u, exec (.carriageAbsent f) s = .next u ∧
      u = { s with cc := ⟨s.cc.feeds.set f { s.cc.feeds.get f with carriage := false }⟩ } ∧
      exec (.tickClose xbsy) u = exec (.tickClose xbsy) s)

/-- R6, R39, R41, R42, R141: a valid packet changes caption state, age, carriage and gathering record, and joins the event buffer, with the bytes of R141, or is dropped; an invalid one
is counted and changes nothing else. (Letters are the codes 97 to 122: log entry 21.) -/
def Obligations.CaptionPacketsTakeEffect : Prop :=
  ∀ (f : Feed) (p : Packet) (s : State), p.feed = some f →
    (packetValid p = true ↔
      p.body.length = p.declared ∧
        ((p.kind = .show ∧ 3 ≤ p.declared ∧ p.declared ≤ 123 ∧ ∀ b ∈ p.body.take 3, 97 ≤ b.toNat ∧ b.toNat ≤ 122) ∨
          (p.kind = .clear ∧ p.declared = 0) ∨ (p.kind = .keepalive ∧ p.declared = 0))) ∧
    (packetValid p = false → exec (.captionPacket p) s = .next { s with
      fiu := { s.fiu with captionErrors := s.fiu.captionErrors.set f (min (s.fiu.captionErrors.get f + 1) 65535) } }) ∧
    (packetValid p = true → ∃ t x b, exec (.captionPacket p) s = .next t ∧
      t = { s with cc := ⟨s.cc.feeds.set f x⟩, rc := { s.rc with captions := s.rc.captions.set f b } } ∧
      x.carriage = true ∧ x.lastPacket = some s.fiu.openTick ∧
      x = { s.cc.feeds.get f with
        state := x.state, age := x.age, carriage := true, lastPacket := x.lastPacket,
        shownAny := x.shownAny, shownTags := x.shownTags } ∧
      (p.kind = .keepalive → x.state = (s.cc.feeds.get f).state ∧ x.age = (s.cc.feeds.get f).age) ∧
      (p.kind = .clear → x.state = .clear ∧ x.age = 0) ∧
      (p.kind ≠ .show → x.shownAny = (s.cc.feeds.get f).shownAny ∧ x.shownTags = (s.cc.feeds.get f).shownTags) ∧
      (∀ g, p.kind = .show → p.body.take 3 = tagBytes g → x.state = .shown g ∧ x.age = 0 ∧ x.shownAny = true ∧
        x.shownTags =
          (if g ∈ (s.cc.feeds.get f).shownTags ∨ 4 ≤ (s.cc.feeds.get f).shownTags.length then (s.cc.feeds.get f).shownTags
           else (s.cc.feeds.get f).shownTags ++ [g])) ∧
      (if (s.rc.captions.get f).truncated = false ∧
          (s.rc.captions.get f).bytes.length + (if p.kind = .show then 2 + p.declared else 2) ≤ 192 then
        b.truncated = false ∧ b.events = (s.rc.captions.get f).events + 1 ∧
          b.bytes.length = (s.rc.captions.get f).bytes.length + (if p.kind = .show then 2 + p.declared else 2) ∧
          (p.kind = .keepalive → b.bytes = (s.rc.captions.get f).bytes ++ [3, 0]) ∧
          (p.kind = .clear → b.bytes = (s.rc.captions.get f).bytes ++ [2, 0]) ∧
          (∀ x0 x1 x2 text, p.kind = .show → p.body = x0 :: x1 :: x2 :: text →
            b.bytes = (s.rc.captions.get f).bytes ++ [1, x0, x1, x2, BitVec.ofNat 8 text.length] ++ text)
       else b = { s.rc.captions.get f with truncated := true }))

/-- R3, R4: FEED_SET makes a setting pending, or is refused; at the close the pending setting comes into force, and the filter state is zeroed exactly when the layout
changes; MEASURE_RESTART touches neither. -/
def Obligations.FeedSettingWaitsForTheBoundary : Prop :=
  (∀ (l : Link) (a : FeedSetArgs) (s : State), s.mayAsk l 34 →
    (7 < a.feed.toNat ∨ 2 < a.layout.toNat →
      exec (.feedSet l (.fits a)) s = .next { s with li := s.li.passed l 34 ⟨.badArgument, []⟩ }) ∧
    (∀ (f : Feed) (y : Layout) (on : Bool), a.feed.toNat = f.val → a.layout.toNat = layoutPlace y → a.enable.toNat = on.toNat →
      exec (.feedSet l (.fits a)) s = .next { s with
        fiu := { s.fiu with pendingSettings := s.fiu.pendingSettings.set f (some ⟨y, on⟩) }
        li := s.li.passed l 34 ⟨.ok, [.byte f.val, .byte (layoutPlace y), .choice on]⟩ })) ∧
  (∀ (xbsy : Bool) (s : State), s.fiu.periods = 4800 → ∃ t, exec (.tickClose xbsy) s = .next t ∧
    ∀ f, t.fiu.pendingSettings.get f = none ∧
      t.fiu.settings.get f = (s.fiu.pendingSettings.get f).getD (s.fiu.settings.get f) ∧
      t.fiu.filters.get f =
        (if (t.fiu.settings.get f).layout = (s.fiu.settings.get f).layout then s.fiu.filters.get f
         else zeroFilters (t.fiu.settings.get f).layout)) ∧
  (∀ (l : Link) (s : State), s.mayAsk l 42 → ∃ t, exec (.measureRestart l (.fits ())) s = .next t ∧
    t.fiu.pendingSettings = s.fiu.pendingSettings ∧ t.fiu.settings = s.fiu.settings)

/-- R7, R8, R11, R18 to R20, R40 to R43, R184: a close opens the next tick with fresh accumulators, ages captions and carriage, gathers afresh, and makes one PROVISIONAL record on every feed, with its energies and four
caption facts, dropping the oldest of a full history. While a word waits, the stall timer counts the close if XBSY is active and becomes 0 if not. (That it stands while none
waits: log entry 53. With no lapse and no stall due, log entry 4.) -/
def Obligations.TickCloseMakesOneRecordPerFeed : Prop :=
  ∀ (xbsy : Bool) (s : State), s.fiu.periods = 4800 → s.su.lapseDue = false → s.xu.stallDue = false →
    ∃ t, exec (.tickClose xbsy) s = .next t ∧ t.fiu.openTick = s.fiu.openTick + 1 ∧ t.fiu.periods = 0 ∧
      t.fiu.baseTick = s.fiu.baseTick ∧ t.fiu.lanes = s.fiu.lanes ∧ t.fiu.captionErrors = s.fiu.captionErrors ∧
      t.iu = s.iu ∧ t.ru = s.ru ∧ t.li = s.li ∧ t.lm = { s.lm with energies := t.lm.energies } ∧
      t.ac = { s.ac with scrub := t.ac.scrub, scrubRequest := t.ac.scrubRequest } ∧
      t.xu = { s.xu with stallTimer :=
        if s.xu.unsent = [] then s.xu.stallTimer else if xbsy = true then min (s.xu.stallTimer + 1) 50 else 0 } ∧
      ∀ f, t.fiu.broken.get f = false ∧
        t.lm.energies.get f =
          (match (t.fiu.settings.get f).layout with | .mono => [0] | .stereo => [0, 0] | .surround => [0, 0, 0, 0, 0, 0]) ∧
        t.cc.feeds.get f = { s.cc.feeds.get f with
          state := (t.cc.feeds.get f).state, age := (t.cc.feeds.get f).age, carriage := (t.cc.feeds.get f).carriage,
          shownAny := (t.cc.feeds.get f).shownAny, shownTags := (t.cc.feeds.get f).shownTags } ∧
        (t.cc.feeds.get f).age = (if (s.cc.feeds.get f).age < 300 then (s.cc.feeds.get f).age + 1 else (s.cc.feeds.get f).age) ∧
        (t.cc.feeds.get f).state =
          (match (s.cc.feeds.get f).state with
           | .shown g => if (s.cc.feeds.get f).age = 299 then .stale else .shown g
           | .clear => .clear
           | .stale => .stale) ∧
        ((t.cc.feeds.get f).carriage = true ↔ (s.cc.feeds.get f).carriage = true ∧
          ∃ p, (s.cc.feeds.get f).lastPacket = some p ∧ s.fiu.openTick < p + 50 ∧ p ≤ s.fiu.openTick) ∧
        (∀ g, (t.cc.feeds.get f).state = .shown g → (t.cc.feeds.get f).shownAny = true ∧ (t.cc.feeds.get f).shownTags = [g]) ∧
        ((∀ g, (t.cc.feeds.get f).state ≠ .shown g) → (t.cc.feeds.get f).shownAny = false ∧ (t.cc.feeds.get f).shownTags = []) ∧
        (s.fiu.openTick < s.fiu.baseTick → t.fiu.history.get f = s.fiu.history.get f) ∧
        (s.fiu.baseTick ≤ s.fiu.openTick → ∃ r : TickRecord,
          t.fiu.history.get f =
            (if (s.fiu.history.get f).length < 128 then s.fiu.history.get f else (s.fiu.history.get f).tail) ++ [r] ∧
          r.tick = s.fiu.openTick ∧ r.membership = none ∧ r.noInput = s.fiu.broken.get f ∧
          (s.fiu.broken.get f = true → r.tickEnergy = 0) ∧
          (∀ e, s.fiu.broken.get f = false → (s.fiu.settings.get f).layout = .mono → s.lm.energies.get f = [e] → r.tickEnergy = e) ∧
          (∀ a b, s.fiu.broken.get f = false → (s.fiu.settings.get f).layout = .stereo → s.lm.energies.get f = [a, b] →
            r.tickEnergy = a + b) ∧
          (∀ a b c d e g, s.fiu.broken.get f = false → (s.fiu.settings.get f).layout = .surround →
            s.lm.energies.get f = [a, b, c, d, e, g] → r.tickEnergy = a + b + c + 45 * e / 32 + 45 * g / 32) ∧
          r.blockEnergy = r.tickEnergy +
            (((s.fiu.history.get f).filter
              (fun q => decide (s.fiu.openTick < q.tick + 4) && decide (q.tick < s.fiu.openTick))).map (·.tickEnergy)).sum ∧
          r.shortTermEnergy = r.tickEnergy +
            (((s.fiu.history.get f).filter
              (fun q => decide (s.fiu.openTick < q.tick + 30) && decide (q.tick < s.fiu.openTick))).map (·.tickEnergy)).sum ∧
          r.shownAny = (s.cc.feeds.get f).shownAny ∧ r.shownTags = (s.cc.feeds.get f).shownTags ∧
          (r.stale = true ↔ (s.cc.feeds.get f).state = .stale ∨
            (∃ g, (s.cc.feeds.get f).state = .shown g) ∧ (s.cc.feeds.get f).age = 299) ∧
          (r.carriage = true ↔ (s.cc.feeds.get f).carriage = true ∧
            ∃ p, (s.cc.feeds.get f).lastPacket = some p ∧ s.fiu.openTick < p + 50 ∧ p ≤ s.fiu.openTick))

/-- R9, R74, R75: at the close of tick c the entries at c - 80 leave every list, their pairs join the Recently Applied list, and each feed's entries reach the Segment
Unit; before tick B0 + 80 nothing is handed over. (That the pairs join in feed order, F0 to F7: log entry 26. With no lapse and no stall due, log entry 4.
That handed-over ticks may wait in a list of any length: log entry 6.) -/
def Obligations.TickCloseHandsOverDueEntries : Prop :=
  ∀ (xbsy : Bool) (s : State), s.fiu.periods = 4800 → s.su.lapseDue = false → s.xu.stallDue = false →
    ∃ t, exec (.tickClose xbsy) s = .next t ∧ t.sg.table = s.sg.table ∧ t.su.anchor = s.su.anchor ∧ t.su.owner = s.su.owner ∧
      t.su.recent.length ≤ max 16 s.su.recent.length ∧
      (s.fiu.openTick < s.fiu.baseTick + 80 →
        t.su.lists = s.su.lists ∧ t.su.recent = s.su.recent ∧ t.su.handed = s.su.handed ∧ t.sg = s.sg) ∧
      (∀ u, s.fiu.openTick = u + 80 → s.fiu.baseTick ≤ u →
        t.su.handed = some u ∧
        (∃ old, s.su.recent ++ ((List.range 8).map (fun i => ((s.su.lists.get (Fin.ofNat 8 i)).filter (fun e => e.tick = u)).map
            (fun e => (e.segmentId, e.kind)))).flatten = old ++ t.su.recent ∧ (old ≠ [] → t.su.recent.length = 16)) ∧
        ∀ f, t.su.lists.get f = (s.su.lists.get f).filter (fun e => e.tick ≠ u) ∧
          t.sg.inbox.get f = s.sg.inbox.get f ++ [⟨u, (s.su.lists.get f).filter (fun e => e.tick = u)⟩])

/-- R137, R140, R141, R143: at a close while RECORDING one page write of 8,192 bytes is requested; otherwise nothing. Feed f's chunk begins at byte 1,024 f: the 32 header bytes, with
the caption state, tag and carriage as the close leaves them, and -999 where the tick has no record (R15); the encoder's codes, or zeros for a broken tick; the caption events, filled up with zeros.
(With no stall due, log entry 4; that page writes may wait in a list of any length: log entry 6.) -/
def Obligations.TickCloseRequestsThePage : Prop :=
  ∀ (xbsy : Bool) (s : State), s.fiu.periods = 4800 → s.xu.stallDue = false →
    ∃ t, exec (.tickClose xbsy) s = .next t ∧
      (s.ac.state ≠ .recording → t.rc.writes = s.rc.writes) ∧
      (s.ac.state = .recording → ∃ bytes, t.rc.writes = s.rc.writes ++ [⟨s.fiu.openTick, bytes, false⟩] ∧ bytes.length = 8192 ∧
        ∀ f : Feed, ∃ v code tag,
          (bytes.drop (1024 * f.val)).take 32 =
            [BitVec.ofNat 8 f.val,
             BitVec.ofNat 8 ((if (s.fiu.lanes.get f).locked = true then 1 else 0) + (if s.fiu.broken.get f = false then 2 else 0)
               + (if (s.rc.captions.get f).truncated = true then 4 else 0) + (if (t.cc.feeds.get f).carriage = true then 8 else 0)
               + 16 * code)]
            ++ beBytes 6 s.fiu.openTick
            ++ [BitVec.ofNat 8 (s.rc.captions.get f).events, BitVec.ofNat 8 (s.rc.captions.get f).bytes.length]
            ++ beSigned 2 v ++ tag
            ++ [BitVec.ofNat 8 ((match (s.fiu.settings.get f).layout with | .mono => 1 | .stereo => 2 | .surround => 3)
               + (if (s.fiu.settings.get f).enabled = true then 128 else 0))]
            ++ List.replicate 16 0 ∧
          (match (t.cc.feeds.get f).state with
           | .clear => code = 0 ∧ tag = [0, 0, 0]
           | .shown g => code = 1 ∧ tag = [g.a, g.b, g.c]
           | .stale => code = 2 ∧ tag = [0, 0, 0]) ∧
          v = (match (t.fiu.history.get f).find? (fun q => decide (q.tick = s.fiu.openTick)) with
               | some q => lv q.blockEnergy
               | none => -999) ∧
          (s.fiu.broken.get f = true → (bytes.drop (1024 * f.val + 32)).take 800 = List.replicate 800 0) ∧
          (s.fiu.broken.get f = false → (s.rc.encoders.get f).codes.length = 800 →
            (bytes.drop (1024 * f.val + 32)).take 800 = (s.rc.encoders.get f).codes) ∧
          ((s.rc.captions.get f).bytes.length ≤ 192 →
            (bytes.drop (1024 * f.val + 832)).take 192 =
              (s.rc.captions.get f).bytes ++ List.replicate (192 - (s.rc.captions.get f).bytes.length) 0)) ∧
      ∀ f, t.rc.encoders.get f = ⟨0, []⟩ ∧ t.rc.captions.get f = ⟨[], 0, false⟩

/-! ## Segments and verdicts -/

/-- R80, R82, R84, R88, R90: the first settlement of a feed. With no entry it opens an UNSCHEDULED record in the lowest free slot, with limit set 0 and requirement NONE, and the tick becomes its member with PART_START;
both notices are sent. A PROGRAMME or BREAK entry opens its own kind, an END opens UNSCHEDULED, an ITEM alone is an orphan. In a full table the DONE record with the smallest close sequence makes room. (What LATE an entry
carries then is copied: in the part no entry at the base tick is LATE.
That it holds also while a lapse is due, and then sees records not yet marked by it, is the model's choice, log entry 4.) -/
def Obligations.FirstSettlementOpensUnscheduled : Prop :=
  (∀ (f : Feed) (s : State) (u i : Nat) (rest : List HandedTick), s.sg.inbox.get f = ⟨u, []⟩ :: rest →
     s.sg.noticeLm.get f = none → s.sg.noticeCc.get f = none → (∀ e ∈ s.sg.table, e.2.feed ≠ f) → tableSorted s.sg.table →
     i < 128 → tableGet s.sg.table i = none → (∀ j, j < i → tableGet s.sg.table j ≠ none) →
     ∃ t r, exec (.settlement f) s = .next t ∧
       (tableGet t.sg.table i = some r ∧ r.openTick = u ∧ r.feed = f ∧ r.kind = .unscheduled ∧ r.state = .opened ∧
         r.segmentId = none ∧ r.limitIndex = 0 ∧ r.limits = s.sg.limits.get 0 ∧ r.requirement = .none ∧ r.partCount = 1 ∧
         r.flags = ⟨false, false, false, false, false, false, false, false⟩ ∧ r.latestMember = some u) ∧
       (∀ j, j ≠ i → tableGet t.sg.table j = tableGet s.sg.table j) ∧
       (t.lm.programme.get f).binding = some ⟨i, u⟩ ∧ t.sg.inbox.get f = rest ∧ t.fiu.settledTo.get f = some u ∧
       t.sg.noticeLm.get f = some ⟨u, ⟨⟨i, u⟩, none, true, false⟩⟩ ∧
       t.sg.noticeCc.get f = some ⟨u, ⟨⟨i, u⟩, none, true, false⟩⟩ ∧
       (∀ q ∈ t.fiu.history.get f, q.tick = u → q.membership = some ⟨⟨i, u⟩, none, true, false⟩) ∧
       t.su = s.su ∧ t.cc = s.cc ∧ t.iu = s.iu ∧ t.ru = s.ru ∧ t.rc = s.rc ∧ t.ac = s.ac ∧ t.xu = s.xu ∧ t.li = s.li) ∧
  (∀ (f : Feed) (s : State) (u i : Nat) (rest : List HandedTick) (e : Entry), s.sg.inbox.get f = ⟨u, [e]⟩ :: rest →
    s.sg.noticeLm.get f = none → s.sg.noticeCc.get f = none → (∀ x ∈ s.sg.table, x.2.feed ≠ f) → tableSorted s.sg.table →
    i < 128 → tableGet s.sg.table i = none → (∀ j, j < i → tableGet s.sg.table j ≠ none) → e.limitSet < 8 →
    ∃ t r, exec (.settlement f) s = .next t ∧
      (tableGet t.sg.table i = some r ∧ r.openTick = u ∧ r.feed = f ∧ r.state = .opened ∧ r.partCount = 1 ∧ r.itemCount = 0 ∧
        r.enclosing = none ∧ r.verdict = none ∧ r.closeSeq = none ∧ r.memberTicks = 0 ∧ r.latestMember = some u ∧
        (∀ k : Fin 8, k.val = r.limitIndex → r.limits = s.sg.limits.get k) ∧
        r.flags = ⟨false, false, false, false, false, false, r.flags.lateStart, false⟩) ∧
      (e.kind = .programme → r.kind = .programme ∧ r.segmentId = some e.segmentId ∧ r.limitIndex = e.limitSet ∧
        r.requirement = e.requirement ∧ r.flags.lateStart = e.late) ∧
      (e.kind = .adBreak → r.kind = .adBreak ∧ r.segmentId = some e.segmentId ∧ r.limitIndex = e.limitSet ∧
        r.requirement = .none ∧ r.flags.lateStart = e.late) ∧
      (e.kind ≠ .programme → e.kind ≠ .adBreak → r.kind = .unscheduled ∧ r.segmentId = none ∧ r.limitIndex = 0 ∧
        r.requirement = .none ∧ r.flags.lateStart = false) ∧
      r.orphanCount = (if e.kind = .item then 1 else 0) ∧
      (∀ j, j ≠ i → tableGet t.sg.table j = tableGet s.sg.table j) ∧ t.sg.closeSeq = s.sg.closeSeq ∧
      t.lm = (if e.kind = .adBreak then s.lm
        else { s.lm with programme := s.lm.programme.set f ⟨some ⟨i, u⟩, [], 0, 0, -999, none⟩ }) ∧
      t.sg.inbox.get f = rest ∧ t.fiu.settledTo.get f = some u ∧
      t.sg.noticeLm.get f = some ⟨u, ⟨⟨i, u⟩, none, true, false⟩⟩ ∧ t.sg.noticeCc.get f = some ⟨u, ⟨⟨i, u⟩, none, true, false⟩⟩ ∧
      t.su = s.su ∧ t.cc = s.cc ∧ t.iu = s.iu ∧ t.ru = s.ru ∧ t.rc = s.rc ∧ t.ac = s.ac ∧ t.xu = s.xu ∧ t.li = s.li) ∧
  (∀ (f : Feed) (s : State) (u d q : Nat) (rest : List HandedTick) (old : Segment), s.sg.inbox.get f = ⟨u, []⟩ :: rest →
    s.sg.noticeLm.get f = none → s.sg.noticeCc.get f = none → (∀ x ∈ s.sg.table, x.2.feed ≠ f) → tableSorted s.sg.table →
    (∀ j, j < 128 → tableGet s.sg.table j ≠ none) → tableGet s.sg.table d = some old → old.state = .closed →
    old.verdict = some .done → old.closeSeq = some q →
    (∀ x ∈ s.sg.table, x.1 ≠ d → x.2.verdict = some .done → ∀ z, x.2.closeSeq = some z → q < z) →
    ∃ t r, exec (.settlement f) s = .next t ∧ tableGet t.sg.table d = some r ∧ r.openTick = u ∧ r.feed = f ∧
      r.kind = .unscheduled ∧ r.state = .opened ∧ (∀ j, j ≠ d → tableGet t.sg.table j = tableGet s.sg.table j))

/-- R9, R10, R83, R85 to R90: a settlement with no entry, or with a PROGRAMME of the ID already open, changes no record but its latest member tick. A BREAK suspends the OPEN programme without closing it, and a
PROGRAMME of the same ID resumes it: same slot, part count one more, the OPEN item and the BREAK closed. An END, a PROGRAMME of another ID and a BREAK over no programme close the OPEN item, the OPEN level-1 record and, but
for the BREAK, the SUSPENDED programme, in that order, and open their own kind; a closed record keeps its fields and gains close sequence, cause, results (R25) and coverage (R56). An ITEM closes the item before it and opens
within its BREAK, or is an orphan; an ITEM_END closes the item. Of two entries at one tick the level-1 entry is applied first: an ITEM opens within the BREAK, or is an orphan of what the other entry leaves on air, and an
ITEM_END finds its item closed. Every settlement writes the membership, sends both notices and moves the frontier to the newest tick that every feed has settled: to its own tick when it is the last feed's, and to none
while a feed has settled nothing.
(Close sequences and counts do not wrap: the model's reading, log entry 10.
That it holds also while a lapse is due, and then sees records not yet marked by it, is the model's choice, log entry 4.) -/
def Obligations.BreakSuspendsAndProgrammeResumes : Prop :=
  (∀ (f : Feed) (s : State) (u p : Nat) (es : List Entry) (rest : List HandedTick) (r : Segment) (it : Option (Nat × Segment)),
    settlementDue s f u es rest → onAir s f p r it →
    (es = [] ∨ ∃ e, es = [e] ∧ e.kind = .programme ∧ r.kind = .programme ∧ r.segmentId = some e.segmentId) →
    ∃ t, exec (.settlement f) s = .next t ∧
      settledWith s t f u rest ⟨⟨p, r.openTick⟩, it.map (fun x => ⟨x.1, x.2.openTick⟩), decide (r.openTick = u),
        match it with | none => false | some x => decide (x.2.openTick = u)⟩ ∧
      t.lm = s.lm ∧ t.sg.closeSeq = s.sg.closeSeq ∧ tableGet t.sg.table p = some { r with latestMember := some u } ∧
      (∀ x, it = some x → tableGet t.sg.table x.1 = some { x.2 with latestMember := some u }) ∧
      (∀ j, j ≠ p → (∀ x, it = some x → x.1 ≠ j) → tableGet t.sg.table j = tableGet s.sg.table j) ∧
      ((∀ g, g ≠ f → ∃ w, s.fiu.settledTo.get g = some w ∧ u ≤ w) → t.fiu.frontier = some u) ∧
      ((∃ g, g ≠ f ∧ s.fiu.settledTo.get g = none) → t.fiu.frontier = none)) ∧
  (∀ (f : Feed) (s : State) (u p i : Nat) (rest : List HandedTick) (r : Segment) (e : Entry) (it : Option (Nat × Segment)),
    settlementDue s f u [e] rest → onAir s f p r it → e.kind = .adBreak → r.kind = .programme → lowestFreeSlot s.sg.table 0 i →
    ∃ t b, exec (.settlement f) s = .next t ∧ settledWith s t f u rest ⟨⟨i, u⟩, none, true, false⟩ ∧
      tableGet t.sg.table p = some { r with state := .suspended } ∧
      (tableGet t.sg.table i = some b ∧ b.kind = .adBreak ∧ b.state = .opened ∧ b.segmentId = some e.segmentId ∧ b.openTick = u ∧
        b.feed = f ∧ b.requirement = .none ∧ b.flags.lateStart = e.late ∧ b.latestMember = some u ∧
        (e.limitSet < 8 → b.limitIndex = e.limitSet)) ∧
      t.sg.closeSeq = s.sg.closeSeq + it.toList.length ∧ t.lm.programme = s.lm.programme ∧
      (∀ x, it = some x → ∃ c, tableGet t.sg.table x.1 = some c ∧ closedAs s x (s.sg.closeSeq + 1) (.adBreak, e.segmentId) c) ∧
      (∀ j, j ≠ p → j ≠ i → (∀ x, it = some x → x.1 ≠ j) → tableGet t.sg.table j = tableGet s.sg.table j)) ∧
  (∀ (f : Feed) (s : State) (u p i : Nat) (rest : List HandedTick) (r b : Segment) (e : Entry) (it : Option (Nat × Segment)),
    settlementDue s f u [e] rest → onAir s f i b it → suspendedIs s f (some (p, r)) → e.kind = .programme → b.kind = .adBreak →
    r.segmentId = some e.segmentId →
    ∃ t c, exec (.settlement f) s = .next t ∧ settledWith s t f u rest ⟨⟨p, r.openTick⟩, none, true, false⟩ ∧
      tableGet t.sg.table p = some { r with
        state := .opened, partCount := r.partCount + 1, latestMember := some u,
        flags := { r.flags with lateStart := r.flags.lateStart || e.late } } ∧
      t.sg.closeSeq = s.sg.closeSeq + it.toList.length + 1 ∧ t.lm.programme = s.lm.programme ∧
      (∀ x, it = some x → ∃ d, tableGet t.sg.table x.1 = some d ∧ closedAs s x (s.sg.closeSeq + 1) (.programme, e.segmentId) d) ∧
      (tableGet t.sg.table i = some c ∧ closedAs s (i, b) (s.sg.closeSeq + it.toList.length + 1) (.programme, e.segmentId) c) ∧
      (∀ j, j ≠ p → j ≠ i → (∀ x, it = some x → x.1 ≠ j) → tableGet t.sg.table j = tableGet s.sg.table j)) ∧
  (∀ (f : Feed) (s : State) (u p i : Nat) (rest : List HandedTick) (r : Segment) (e : Entry) (it su : Option (Nat × Segment))
      (closing : List (Nat × Segment)),
    settlementDue s f u [e] rest → onAir s f p r it → suspendedIs s f su → e.limitSet < 8 → lowestFreeSlot s.sg.table 0 i →
    ((e.kind = .ending ∨ e.kind = .programme ∧ ¬ (r.kind = .programme ∧ r.segmentId = some e.segmentId) ∧
          ∀ x, su = some x → x.2.segmentId ≠ some e.segmentId) ∧ closing = it.toList ++ (p, r) :: su.toList ∨
      e.kind = .adBreak ∧ r.kind ≠ .programme ∧ closing = it.toList ++ [(p, r)]) →
    ∃ t n, exec (.settlement f) s = .next t ∧ settledWith s t f u rest ⟨⟨i, u⟩, none, true, false⟩ ∧
      t.sg.closeSeq = s.sg.closeSeq + closing.length ∧
      (∀ (k : Nat) (x : Nat × Segment), closing[k]? = some x →
        ∃ c, tableGet t.sg.table x.1 = some c ∧ closedAs s x (s.sg.closeSeq + k + 1) (e.kind, e.segmentId) c) ∧
      (tableGet t.sg.table i = some n ∧ n.openTick = u ∧ n.feed = f ∧ n.state = .opened ∧ n.partCount = 1 ∧ n.latestMember = some u ∧
        n.flags = ⟨false, false, false, false, false, false, e.late, false⟩ ∧
        n.kind = (match e.kind with | .programme => .programme | .adBreak => .adBreak | _ => .unscheduled) ∧
        n.segmentId = (if e.kind = .ending then none else some e.segmentId) ∧
        n.limitIndex = (if e.kind = .ending then 0 else e.limitSet) ∧
        n.requirement = (if e.kind = .programme then e.requirement else .none)) ∧
      (∀ j, j ≠ i → (∀ x ∈ closing, x.1 ≠ j) → tableGet t.sg.table j = tableGet s.sg.table j)) ∧
  (∀ (f : Feed) (s : State) (u p i : Nat) (rest : List HandedTick) (r : Segment) (e : Entry) (it : Option (Nat × Segment)),
    settlementDue s f u [e] rest → onAir s f p r it → e.limitSet < 8 → lowestFreeSlot s.sg.table 0 i → r.openTick ≠ u →
    (e.kind = .item ∧ r.kind = .adBreak ∨ e.kind = .itemEnd →
      ∃ t, exec (.settlement f) s = .next t ∧ t.sg.closeSeq = s.sg.closeSeq + it.toList.length ∧
        (∀ x, it = some x → ∃ c, tableGet t.sg.table x.1 = some c ∧ closedAs s x (s.sg.closeSeq + 1) (e.kind, e.segmentId) c) ∧
        (e.kind = .itemEnd → settledWith s t f u rest ⟨⟨p, r.openTick⟩, none, false, false⟩ ∧
          tableGet t.sg.table p = some { r with latestMember := some u } ∧
          (∀ j, j ≠ p → (∀ x, it = some x → x.1 ≠ j) → tableGet t.sg.table j = tableGet s.sg.table j)) ∧
        (e.kind = .item → settledWith s t f u rest ⟨⟨p, r.openTick⟩, some ⟨i, u⟩, false, true⟩ ∧
          tableGet t.sg.table p = some { r with latestMember := some u, itemCount := r.itemCount + 1 } ∧
          (∃ n, tableGet t.sg.table i = some n ∧ n.openTick = u ∧ n.feed = f ∧ n.state = .opened ∧ n.kind = .item ∧
            n.segmentId = some e.segmentId ∧ n.limitIndex = e.limitSet ∧ n.requirement = e.requirement ∧
            n.enclosing = some ⟨p, r.openTick⟩ ∧ n.flags.lateStart = e.late ∧ n.latestMember = some u) ∧
          (t.lm.item.get f).binding = some ⟨i, u⟩ ∧ t.lm.programme = s.lm.programme ∧
          (∀ j, j ≠ p → j ≠ i → (∀ x, it = some x → x.1 ≠ j) → tableGet t.sg.table j = tableGet s.sg.table j))) ∧
    (e.kind = .item → r.kind ≠ .adBreak → it = none →
      ∃ t, exec (.settlement f) s = .next t ∧ settledWith s t f u rest ⟨⟨p, r.openTick⟩, none, false, false⟩ ∧
        t.sg.closeSeq = s.sg.closeSeq ∧ t.lm = s.lm ∧
        tableGet t.sg.table p = some { r with latestMember := some u, orphanCount := r.orphanCount + 1 } ∧
        (∀ j, j ≠ p → tableGet t.sg.table j = tableGet s.sg.table j))) ∧
  (∀ (f : Feed) (s : State) (u p i j : Nat) (rest : List HandedTick) (r : Segment) (e1 e2 : Entry) (it : Option (Nat × Segment))
      (closing : List (Nat × Segment)),
    settlementDue s f u [e1, e2] rest → onAir s f p r it → e1.kind = .adBreak → e2.kind = .item → e1.limitSet < 8 → e2.limitSet < 8 →
    lowestFreeSlot s.sg.table 0 i → lowestFreeSlot s.sg.table (i + 1) j →
    closing = it.toList ++ (if r.kind = .programme then [] else [(p, r)]) →
    ∃ t b n, exec (.settlement f) s = .next t ∧ settledWith s t f u rest ⟨⟨i, u⟩, some ⟨j, u⟩, true, true⟩ ∧
      t.sg.closeSeq = s.sg.closeSeq + closing.length ∧
      (∀ (k : Nat) (x : Nat × Segment), closing[k]? = some x →
        ∃ c, tableGet t.sg.table x.1 = some c ∧ closedAs s x (s.sg.closeSeq + k + 1) (.adBreak, e1.segmentId) c) ∧
      (r.kind = .programme → tableGet t.sg.table p = some { r with state := .suspended }) ∧
      (tableGet t.sg.table i = some b ∧ b.kind = .adBreak ∧ b.state = .opened ∧ b.openTick = u ∧ b.feed = f ∧ b.itemCount = 1 ∧
        b.segmentId = some e1.segmentId ∧ b.limitIndex = e1.limitSet ∧ b.flags.lateStart = e1.late ∧ b.latestMember = some u) ∧
      (tableGet t.sg.table j = some n ∧ n.kind = .item ∧ n.state = .opened ∧ n.openTick = u ∧ n.feed = f ∧
        n.enclosing = some ⟨i, u⟩ ∧ n.segmentId = some e2.segmentId ∧ n.limitIndex = e2.limitSet ∧ n.requirement = e2.requirement ∧
        n.flags.lateStart = e2.late ∧ n.latestMember = some u) ∧
      (t.lm.item.get f).binding = some ⟨j, u⟩ ∧
      (∀ k, k ≠ p → k ≠ i → k ≠ j → (∀ x ∈ closing, x.1 ≠ k) → tableGet t.sg.table k = tableGet s.sg.table k)) ∧
  (∀ (f : Feed) (s first : State) (u p : Nat) (rest : List HandedTick) (r : Segment) (e1 e2 : Entry) (it su : Option (Nat × Segment)),
    settlementDue s f u [e1, e2] rest → onAir s f p r it → suspendedIs s f su →
    first = { s with sg := { s.sg with inbox := s.sg.inbox.set f (⟨u, [e1]⟩ :: rest) } } →
    (e2.kind = .item → e1.kind = .programme ∨ e1.kind = .ending → ∀ t1, exec (.settlement f) first = .next t1 →
      ∃ t m, exec (.settlement f) s = .next t ∧ t1.sg.noticeLm.get f = some ⟨u, m⟩ ∧
        t = { t1 with sg := { t1.sg with table := t.sg.table } } ∧
        tableGet t.sg.table m.level1.index =
          (tableGet t1.sg.table m.level1.index).map (fun x => { x with orphanCount := x.orphanCount + 1 }) ∧
        (∀ j, j ≠ m.level1.index → tableGet t.sg.table j = tableGet t1.sg.table j)) ∧
    (e2.kind = .itemEnd → e1.kind = .programme ∨ e1.kind = .ending ∨ e1.kind = .adBreak →
      it = none ∨ ¬ (e1.kind = .programme ∧ r.kind = .programme ∧ r.segmentId = some e1.segmentId) →
      exec (.settlement f) s = exec (.settlement f) first))

/-- R27 to R29: a notice with no item credits the Programme Integrator bound to its level-1 segment, and one with an item the Item Integrator bound to it: a block whose four ticks are members is credited once, an active
one into its bin, and a window whose thirty ticks are members raises the maximum short-term level; nothing else of the part but the notice changes. R25, R31 to R33: the results of an integrator: the two gates, the passing
count and the integrated level.
(Counts do not wrap: the model's reading, log entry 10.) -/
def Obligations.LevelMeterCreditsMemberBlocks : Prop :=
  (∀ (f : Feed) (s : State) (n : Notice) (r : TickRecord), s.sg.noticeLm.get f = some n → n.membership.level2 = none →
     recordAt (s.fiu.history.get f) n.tick = some r →
     ∃ t x, exec (.settledTickNoticeLm f) s = .next t ∧
       t = { s with
         lm := { s.lm with programme := s.lm.programme.set f x }
         sg := { s.sg with noticeLm := s.sg.noticeLm.set f none } } ∧
       ((s.lm.programme.get f).binding ≠ some n.membership.level1 → x = s.lm.programme.get f) ∧
       ((s.lm.programme.get f).binding = some n.membership.level1 →
         (¬ (∀ k, k < 4 → k ≤ n.tick ∧ ∃ q m, recordAt (s.fiu.history.get f) (n.tick - k) = some q ∧ q.membership = some m ∧
             m.level1 = n.membership.level1) → x.qualified = (s.lm.programme.get f).qualified ∧ x.bins = (s.lm.programme.get f).bins) ∧
         ((∀ k, k < 4 → k ≤ n.tick ∧ ∃ q m, recordAt (s.fiu.history.get f) (n.tick - k) = some q ∧ q.membership = some m ∧
             m.level1 = n.membership.level1) →
           x.qualified = (s.lm.programme.get f).qualified + 1 ∧
           x.maxMomentary = max (s.lm.programme.get f).maxMomentary (lv r.blockEnergy) ∧
           (r.blockEnergy < 115292150461 →
             x.active = (s.lm.programme.get f).active ∧ x.bins = (s.lm.programme.get f).bins) ∧
           (115292150461 ≤ r.blockEnergy → x.active = (s.lm.programme.get f).active + 1 ∧
             ∀ k, tableGet x.bins k =
               if k = ((lv r.blockEnergy + 700) / 5).toNat then
                 some (match tableGet (s.lm.programme.get f).bins k with
                   | some z => ⟨z.count + 1, z.sum + r.blockEnergy⟩
                   | none => ⟨1, r.blockEnergy⟩)
               else tableGet (s.lm.programme.get f).bins k)))) ∧
  (∀ (item : Bool) (f : Feed) (s : State) (n : Notice) (r : TickRecord) (seg : Handle) (x : Integrator)
      (member : Nat → Prop), s.sg.noticeLm.get f = some n → recordAt (s.fiu.history.get f) n.tick = some r →
    (if item then n.membership.level2 = some seg else n.membership.level1 = seg ∧ n.membership.level2 = none) →
    x = (if item then s.lm.item.get f else s.lm.programme.get f) → x.binding = some seg →
    (∀ u, member u ↔ ∃ q m, recordAt (s.fiu.history.get f) u = some q ∧ q.membership = some m ∧
      (if item then m.level2 = some seg else m.level1 = seg)) →
    ∃ t y, exec (.settledTickNoticeLm f) s = .next t ∧
      t = { s with
        lm := if item then { s.lm with item := s.lm.item.set f y } else { s.lm with programme := s.lm.programme.set f y }
        sg := { s.sg with noticeLm := s.sg.noticeLm.set f none } } ∧
      y.binding = x.binding ∧
      (¬ (∀ k, k < 4 → k ≤ n.tick ∧ member (n.tick - k)) →
        y.qualified = x.qualified ∧ y.active = x.active ∧ y.bins = x.bins ∧ y.maxMomentary = x.maxMomentary) ∧
      ((∀ k, k < 4 → k ≤ n.tick ∧ member (n.tick - k)) →
        y.qualified = x.qualified + 1 ∧ y.maxMomentary = max x.maxMomentary (lv r.blockEnergy) ∧
        (r.blockEnergy < 115292150461 → y.active = x.active ∧ y.bins = x.bins) ∧
        (115292150461 ≤ r.blockEnergy → y.active = x.active + 1 ∧
          ∀ k, tableGet y.bins k =
            if k = ((lv r.blockEnergy + 700) / 5).toNat then
              some (match tableGet x.bins k with
                | some z => ⟨z.count + 1, z.sum + r.blockEnergy⟩
                | none => ⟨1, r.blockEnergy⟩)
            else tableGet x.bins k)) ∧
      (¬ (∀ k, k < 30 → k ≤ n.tick ∧ member (n.tick - k)) → y.maxShortTerm = x.maxShortTerm) ∧
      ((∀ k, k < 30 → k ≤ n.tick ∧ member (n.tick - k)) →
        y.maxShortTerm = some (match x.maxShortTerm with
          | none => lv (2 * r.shortTermEnergy / 15)
          | some v => max v (lv (2 * r.shortTermEnergy / 15))))) ∧
  (∀ (f : Feed) (s : State) (n : Notice), s.sg.noticeLm.get f = some n →
    (∀ seg, n.membership.level2 = some seg → (s.lm.item.get f).binding ≠ some seg) →
    (s.lm.programme.get f).binding ≠ some n.membership.level1 →
    exec (.settledTickNoticeLm f) s = .next { s with sg := { s.sg with noticeLm := s.sg.noticeLm.set f none } }) ∧
  (∀ (x : Integrator) (count sum : Nat → Nat),
    (∀ low, count low = ((x.bins.filter (fun e => decide (low ≤ e.1))).map (fun e => e.2.count)).sum) →
    (∀ low, sum low = ((x.bins.filter (fun e => decide (low ≤ e.1))).map (fun e => e.2.sum)).sum) →
    x.results.qualified = x.qualified ∧ x.results.active = x.active ∧ x.results.maxMomentary = x.maxMomentary ∧
    x.results.maxShortTerm = x.maxShortTerm ∧
    (count 0 = 0 → x.results.passing = 0 ∧ x.results.integrated = none ∧ x.results.silent = true) ∧
    (∀ low : Nat, count 0 ≠ 0 → low = ((max (lv (sum 0 / count 0) - 100) (-700) + 700) / 5).toNat →
      x.results.passing = count low ∧ x.results.integrated = some (lv (sum low / count low)) ∧ x.results.silent = false))

/-- R44 to R54: a notice under a level-1 segment that owes no subtitles resets the gap counter and the carriage-lost mark, counts speech and dead air, and credits the member tick; DEAD_AIR is reported when the limit is
reached. Under any effective segment, the item's when there is one: speech, coverage and wrong language are counted by its requirement, the gap counter and the carriage watch run, and SUBTITLE_GAP, CARRIAGE_LOST and
DEAD_AIR are reported in that order. A notice whose handle matches no record is dropped. (A tick that resets the gap counter, a boundary tick of uncovered speech among them, leaves it at 0 and is not counted: the model's
reading of R49 and R50, log entry 24. The gap and dead-air counters, and a record's counts, rise past 2^32 - 1: the model's reading, log entry 10. R96 keeps a dead-air limit at 20 or more.) -/
def Obligations.CaptionCheckerCreditsTheTick : Prop :=
  (∀ (f : Feed) (s : State) (n : Notice) (e : Segment) (r : TickRecord), s.sg.noticeCc.get f = some n → n.membership.level2 = none →
     tableGet s.sg.table n.membership.level1.index = some e → e.openTick = n.membership.level1.openTick → e.requirement = .none →
     e.limits.deadAir ≠ some 0 → recordAt (s.fiu.history.get f) n.tick = some r → tableSorted s.sg.table →
     ∃ t x e2, exec (.settledTickNoticeCc f) s = .next t ∧ t.cc = ⟨s.cc.feeds.set f x⟩ ∧ t.sg.noticeCc.get f = none ∧
       tableGet t.sg.table n.membership.level1.index = some e2 ∧ e2.memberTicks = e.memberTicks + 1 ∧
       e2.speechTicks = e.speechTicks +
         (if 115292150461 ≤ r.blockEnergy ∧ e.limits.speechThreshold ≤ lv r.blockEnergy then 1 else 0) ∧
       e2.coveredTicks = e.coveredTicks ∧ e2.wrongTicks = e.wrongTicks ∧ e2.gapCount = e.gapCount ∧
       x.gap = 0 ∧ x.gapReported = false ∧ x.carriageLost = false ∧ x.previous = some n.membership.level1 ∧
       (r.noInput = false → 115292150461 ≤ r.blockEnergy → x.deadAir = 0 ∧ x.deadAirReported = false ∧
         t.iu = s.iu ∧ e2.deadAirRuns = e.deadAirRuns) ∧
       (r.noInput = true ∨ r.blockEnergy < 115292150461 → x.deadAir = (s.cc.feeds.get f).deadAir + 1 ∧
         (∀ lim, e.limits.deadAir = some lim → lim ≤ x.deadAir → (s.cc.feeds.get f).deadAirReported = false →
           x.deadAirReported = true ∧ e2.deadAirRuns = e.deadAirRuns + 1 ∧
           t.iu.reports = s.iu.reports ++
             [⟨.deadAir, some e.feed, some n.membership.level1, e.segmentId, some (.segment e.kind), n.tick,
               x.deadAirStart.getD n.tick, n.tick, some (x.deadAir : Int), some (lim : Int), false⟩])) ∧
       t.lm = s.lm ∧ t.su = s.su ∧ t.ru = s.ru ∧ t.rc = s.rc ∧ t.ac = s.ac ∧ t.xu = s.xu ∧ t.li = s.li ∧ t.fiu = s.fiu) ∧
  (∀ (f : Feed) (s : State) (n : Notice) (h : Handle) (e : Segment) (r : TickRecord) (old : CaptionFeed)
      (speech covered reset reached lost silent : Prop), s.sg.noticeCc.get f = some n →
    (h = match n.membership.level2 with | some i => i | none => n.membership.level1) → tableGet s.sg.table h.index = some e →
    e.openTick = h.openTick → e.limits.deadAir ≠ some 0 → recordAt (s.fiu.history.get f) n.tick = some r →
    tableSorted s.sg.table → (∀ i, n.membership.level2 = some i → i.index ≠ n.membership.level1.index) →
    old = s.cc.feeds.get f →
    (speech ↔ 115292150461 ≤ r.blockEnergy ∧ e.limits.speechThreshold ≤ lv r.blockEnergy) →
    (covered ↔ r.stale = false ∧ (e.requirement = .any ∧ r.shownAny = true ∨ ∃ g, e.requirement = .tag g ∧ g ∈ r.shownTags)) →
    (reset ↔ n.membership.partStart = true ∨ n.membership.itemStart = true ∨ old.previous ≠ some h ∨ e.requirement = .none ∨
      covered) →
    (reached ↔ ¬ reset ∧ speech ∧ e.limits.maxGap ≤ old.gap + 1 ∧ old.gapReported = false) →
    (lost ↔ e.requirement ≠ .none ∧ r.carriage = false) →
    (silent ↔ r.noInput = true ∨ r.blockEnergy < 115292150461) →
    ∃ t x e2 gap carriage dead, exec (.settledTickNoticeCc f) s = .next t ∧
      t = { s with
        cc := ⟨s.cc.feeds.set f x⟩
        sg := { s.sg with table := t.sg.table, noticeCc := s.sg.noticeCc.set f none }
        iu := { s.iu with reports := s.iu.reports ++ (gap ++ carriage ++ dead) } } ∧
      x = { old with
        gap := x.gap, gapStart := x.gapStart, gapReported := x.gapReported, carriageLost := x.carriageLost, deadAir := x.deadAir,
        deadAirStart := x.deadAirStart, deadAirReported := x.deadAirReported, previous := some h } ∧
      tableGet t.sg.table h.index = some e2 ∧
      e2 = { e with
        memberTicks := e.memberTicks + 1, speechTicks := e2.speechTicks, coveredTicks := e2.coveredTicks,
        wrongTicks := e2.wrongTicks, gapCount := e2.gapCount, longestGap := e2.longestGap, deadAirRuns := e2.deadAirRuns } ∧
      (∀ b, n.membership.level2 ≠ none → tableGet s.sg.table n.membership.level1.index = some b →
        b.openTick = n.membership.level1.openTick →
        tableGet t.sg.table n.membership.level1.index = some { b with memberTicks := b.memberTicks + 1 }) ∧
      (∀ j, j ≠ h.index → j ≠ n.membership.level1.index → tableGet t.sg.table j = tableGet s.sg.table j) ∧
      (speech → e2.speechTicks = e.speechTicks + 1) ∧ (¬ speech → e2.speechTicks = e.speechTicks) ∧
      (speech ∧ covered → e2.coveredTicks = e.coveredTicks + 1) ∧ (¬ (speech ∧ covered) → e2.coveredTicks = e.coveredTicks) ∧
      (speech ∧ ¬ covered ∧ r.stale = false ∧ r.shownTags ≠ [] ∧ (∃ g, e.requirement = .tag g) → e2.wrongTicks = e.wrongTicks + 1) ∧
      (¬ (speech ∧ ¬ covered ∧ r.stale = false ∧ r.shownTags ≠ [] ∧ ∃ g, e.requirement = .tag g) → e2.wrongTicks = e.wrongTicks) ∧
      (reset → x.gap = 0 ∧ x.gapStart = old.gapStart ∧ x.gapReported = false ∧ e2.longestGap = e.longestGap) ∧
      (¬ reset → ¬ speech → x.gap = old.gap ∧ x.gapStart = old.gapStart ∧ x.gapReported = old.gapReported ∧
        e2.longestGap = e.longestGap) ∧
      (¬ reset → speech → x.gap = old.gap + 1 ∧ x.gapStart = (if old.gap = 0 then some n.tick else old.gapStart) ∧
        e2.longestGap = max e.longestGap x.gap ∧ (reached → x.gapReported = true) ∧ (¬ reached → x.gapReported = old.gapReported)) ∧
      (reached → e2.gapCount = e.gapCount + 1 ∧ gap = [⟨.subtitleGap, some e.feed, some h, e.segmentId, some (.segment e.kind), n.tick,
        x.gapStart.getD n.tick, n.tick, some (x.gap : Int), some (e.limits.maxGap : Int), false⟩]) ∧
      (¬ reached → e2.gapCount = e.gapCount ∧ gap = []) ∧
      (lost → x.carriageLost = true ∧ carriage = if old.carriageLost = true then [] else
        [⟨.carriageLost, some e.feed, some h, e.segmentId, some (.segment e.kind), n.tick, n.tick, n.tick, none, none, false⟩]) ∧
      (¬ lost → x.carriageLost = false ∧ carriage = []) ∧
      (¬ silent → x.deadAir = 0 ∧ x.deadAirReported = false ∧ x.deadAirStart = old.deadAirStart ∧ dead = [] ∧
        e2.deadAirRuns = e.deadAirRuns) ∧
      (silent → x.deadAir = old.deadAir + 1 ∧ x.deadAirStart = (if old.deadAir = 0 then some n.tick else old.deadAirStart) ∧
        (∀ lim, e.limits.deadAir = some lim → lim ≤ x.deadAir → old.deadAirReported = false →
          x.deadAirReported = true ∧ e2.deadAirRuns = e.deadAirRuns + 1 ∧
          dead = [⟨.deadAir, some e.feed, some h, e.segmentId, some (.segment e.kind), n.tick, x.deadAirStart.getD n.tick, n.tick,
            some (x.deadAir : Int), some (lim : Int), false⟩]) ∧
        (e.limits.deadAir = none ∨ (∃ lim, e.limits.deadAir = some lim ∧ x.deadAir < lim) ∨ old.deadAirReported = true →
          x.deadAirReported = old.deadAirReported ∧ e2.deadAirRuns = e.deadAirRuns ∧ dead = []))) ∧
  (∀ (f : Feed) (s : State) (n : Notice) (h : Handle), s.sg.noticeCc.get f = some n →
    (h = match n.membership.level2 with | some i => i | none => n.membership.level1) →
    (∀ e, tableGet s.sg.table h.index = some e → e.openTick ≠ h.openTick) →
    exec (.settledTickNoticeCc f) s = .next { s with sg := { s.sg with noticeCc := s.sg.noticeCc.set f none } })

/-- R92 to R94: the records of a feed that await their verdict are judged in close sequence order once both notices of the settled tick have been handled: each becomes DONE with the loudness flags its limits give (a BREAK
has no loudness checks), each failed check is reported with its measured value and limit, record by record, and SEGMENT is flagged when any flag of one of them is set.
(With no record to judge the state is as it was: log entry 1.
That it holds also while a lapse is due, and then sees records not yet marked by it, is the model's choice, log entry 4.) -/
def Obligations.VerdictJudgesTheClosedRecord : Prop :=
  ∀ (f : Feed) (s : State) (es : List (Nat × Segment)), s.sg.noticeLm.get f = none → s.sg.noticeCc.get f = none →
    tableSorted s.sg.table → (∀ e, e ∈ es ↔ e ∈ s.sg.table ∧ e.2.feed = f ∧ e.2.verdict = some .pending) →
    es.Pairwise (fun a b => ∃ m n, a.2.closeSeq = some m ∧ b.2.closeSeq = some n ∧ m < n) →
    ∃ (t : State) (judged : Nat × Segment → Segment) (u : Nat), exec (.verdict f) s = .next t ∧
      t = { s with sg := { s.sg with table := t.sg.table }, iu := { s.iu with reports := t.iu.reports }, li := t.li } ∧
      (∀ w, s.fiu.settledTo.get f = some w → u = w) ∧
      (∀ j, (∀ e ∈ es, e.1 ≠ j) → tableGet t.sg.table j = tableGet s.sg.table j) ∧
      t.li = (if es.any (fun e => (judged e).flags.any) then s.li.raiseAll .segment else s.li) ∧
      t.iu.reports = s.iu.reports ++ (es.map (fun e =>
        (if (judged e).flags.loudnessHigh then
          [⟨.loudnessHigh, some f, some ⟨e.1, e.2.openTick⟩, e.2.segmentId, some (.segment e.2.kind), u, e.2.openTick,
            e.2.lastMember.getD e.2.openTick, e.2.loudness.bind (fun x => x.integrated),
            some (e.2.limits.target + e.2.limits.toleranceAbove), e.2.flags.scheduleUnconfirmed⟩] else []) ++
        ((if (judged e).flags.loudnessLow then
          [⟨.loudnessLow, some f, some ⟨e.1, e.2.openTick⟩, e.2.segmentId, some (.segment e.2.kind), u, e.2.openTick,
            e.2.lastMember.getD e.2.openTick, e.2.loudness.bind (fun x => x.integrated),
            some (e.2.limits.target - e.2.limits.toleranceBelow), e.2.flags.scheduleUnconfirmed⟩] else []) ++
        ((if (judged e).flags.shortTermHigh then
          [⟨.shortTermHigh, some f, some ⟨e.1, e.2.openTick⟩, e.2.segmentId, some (.segment e.2.kind), u, e.2.openTick,
            e.2.lastMember.getD e.2.openTick, e.2.loudness.bind (fun x => x.maxShortTerm), e.2.limits.ceiling,
            e.2.flags.scheduleUnconfirmed⟩] else []) ++
        (if (judged e).flags.coverageLow then
          [⟨.coverageLow, some f, some ⟨e.1, e.2.openTick⟩, e.2.segmentId, some (.segment e.2.kind), u, e.2.openTick,
            e.2.lastMember.getD e.2.openTick, e.2.coverage.map (fun (v : Nat) => (v : Int)), some (e.2.limits.minCoverage : Int),
            e.2.flags.scheduleUnconfirmed⟩] else []))))).flatten ∧
      ∀ (e : Nat × Segment) (r q : Segment), e ∈ es → r = e.2 → q = judged e →
        tableGet t.sg.table e.1 = some q ∧ q = { r with verdict := some .done, flags := q.flags } ∧
        (q.flags.lateStart = r.flags.lateStart ∧ q.flags.scheduleUnconfirmed = r.flags.scheduleUnconfirmed) ∧
        (q.flags.coverageLow = true ↔ r.requirement ≠ .none ∧ ∃ c, r.coverage = some c ∧ c < r.limits.minCoverage) ∧
        (r.loudness = none → q.flags = { r.flags with coverageLow := q.flags.coverageLow }) ∧
        (∀ x : Loudness, r.loudness = some x → q.flags.silent = x.silent ∧
          (q.flags.tooShort = true ↔ x.active < r.limits.minBlocks ∨ r.flags.tooShort = true) ∧
          (x.active < r.limits.minBlocks ∨ x.integrated = none →
            q.flags.loudnessHigh = r.flags.loudnessHigh ∧ q.flags.loudnessLow = r.flags.loudnessLow) ∧
          (∀ v, r.limits.minBlocks ≤ x.active → x.integrated = some v →
            (q.flags.loudnessHigh = true ↔ r.limits.target + r.limits.toleranceAbove < v) ∧
            (q.flags.loudnessLow = true ↔ r.kind ≠ .item ∧ v < r.limits.target - r.limits.toleranceBelow)) ∧
          (q.flags.shortTermHigh = true ↔ ∃ c m, r.limits.ceiling = some c ∧ x.maxShortTerm = some m ∧ c < m))

/-- R21: Lv(E) is at least k exactly when E is at least Q x 10^((k - 0.5)/100), within -999 to +99; Q is 2^60. The bound is raised to its 200th power, so that
both sides are integers. -/
def Obligations.LvComparesWithTheExactBound : Prop :=
  (∀ E : Nat, -999 ≤ lv E ∧ lv E ≤ 99) ∧ lv 0 = -999 ∧
  (∀ (E : Nat) (k : Nat), 1 ≤ k → k ≤ 99 → ((k : Int) ≤ lv E ↔ (2 ^ 60) ^ 200 * 10 ^ (2 * k - 1) ≤ E ^ 200)) ∧
  (∀ (E : Nat) (k : Nat), k ≤ 998 → (-(k : Int) ≤ lv E ↔ (2 ^ 60) ^ 200 ≤ E ^ 200 * 10 ^ (2 * k + 1))) ∧
  (∀ E : Nat, E < 2 ^ 63 → lv E ≤ 90)

/-- R96, R97: LIMITS_WRITE stores every field brought into its range and says whether one was changed; LIMITS_READ shows the set, its nine fields in order, and changes nothing. The ceiling and the
dead-air limit, which may be none, have R197's byte before them. -/
def Obligations.LimitSetsAreWrittenAndRead : Prop :=
  (∀ x : LimitSet, limitFields x = List.flatten
    [[.signedWord x.target, .signedWord x.toleranceAbove, .signedWord x.toleranceBelow],
     match x.ceiling with | none => [.byte 0] | some v => [.byte 1, .signedWord v],
     [.signedWord x.minBlocks, .signedWord x.speechThreshold, .signedWord x.maxGap, .signedWord x.minCoverage],
     match x.deadAir with | none => [.byte 0] | some n => [.byte 1, .signedWord n]]) ∧
  (∀ (l : Link) (a : LimitsWriteArgs) (s : State), s.mayAsk l 32 →
    (7 < a.index.toNat → exec (.limitsWrite l (.fits a)) s = .next { s with li := s.li.passed l 32 ⟨.badArgument, []⟩ }) ∧
    (∀ i : Fin 8, a.index.toNat = i.val → ∃ x st, exec (.limitsWrite l (.fits a)) s = .next { s with
        sg := { s.sg with limits := s.sg.limits.set i x }
        li := s.li.passed l 32 ⟨st, .byte i.val :: limitFields x⟩ } ∧
      x.target = max (-400) (min (-100) a.target.toInt) ∧ x.toleranceAbove = max 0 (min 50 a.toleranceAbove.toInt) ∧
      x.toleranceBelow = max 0 (min 50 a.toleranceBelow.toInt) ∧
      x.ceiling = a.ceiling.map (fun v => max (-400) (min 0 v.toInt)) ∧
      (x.minBlocks : Int) = max 0 (min 3000 a.minBlocks.toInt) ∧ x.speechThreshold = max (-700) (min (-200) a.speechThreshold.toInt) ∧
      (x.maxGap : Int) = max 10 (min 600 a.maxGap.toInt) ∧ (x.minCoverage : Int) = max 0 (min 1000 a.minCoverage.toInt) ∧
      x.deadAir.map (fun (n : Nat) => (n : Int)) = a.deadAir.map (fun v => max 20 (min 600 v.toInt)) ∧
      (st = .ok ∨ st = .clamped) ∧
      (st = .ok ↔ x.target = a.target.toInt ∧ x.toleranceAbove = a.toleranceAbove.toInt ∧
        x.toleranceBelow = a.toleranceBelow.toInt ∧ x.ceiling = a.ceiling.map BitVec.toInt ∧
        (x.minBlocks : Int) = a.minBlocks.toInt ∧ x.speechThreshold = a.speechThreshold.toInt ∧
        (x.maxGap : Int) = a.maxGap.toInt ∧ (x.minCoverage : Int) = a.minCoverage.toInt ∧
        x.deadAir.map (fun (n : Nat) => (n : Int)) = a.deadAir.map BitVec.toInt))) ∧
  (∀ (l : Link) (b : Byte) (s : State), s.mayAsk l 7 →
    (7 < b.toNat → exec (.limitsRead l (.fits b)) s = .next { s with li := s.li.passed l 7 ⟨.badArgument, []⟩ }) ∧
    (∀ i : Fin 8, b.toNat = i.val →
      exec (.limitsRead l (.fits b)) s = .next { s with li := s.li.passed l 7 ⟨.ok, limitFields (s.sg.limits.get i)⟩ }))

/-- R30, R35, R36, R55, R79, R98, R99: METER, SEGMENT_READ and SEGMENT_LIST change nothing but the slot; when each is refused; METER's items for a feed, the effective segment of tick F among them; every field of a record
that SEGMENT_READ shows, the results of an OPEN or SUSPENDED record being those of the integrator bound to its handle; a CLOSED list is in rising close sequence, beyond the after value, DONE, on the feeds of the mask, and at most 12
long; it leaves out no record but behind 12 shown or from the first PENDING one on, and names the close sequence reached and whether more lies beyond. An ACTIVE list shows, feed by feed of the mask, each whole feed that
still fits, and names the feed to resume at. (ACTIVE is 0 and CLOSED 1, by R197; the lane lock byte of METER: log entry 45; the one byte before a field of several parts: log entry 20.
An after value carried with ACTIVE is not used: the model's choice, log entry 16.
That it holds also while a lapse is due, and then sees records not yet marked by it, is the model's choice, log entry 4.) -/
def Obligations.SegmentReadsShowAndChangeNothing : Prop :=
  (∀ (i : Nat) (e : Segment), summaryFields (i, e) = List.flatten
    [[.byte i, .tick e.openTick, .byte e.feed.val, .byte e.kind.place],
     match e.segmentId with | none => [.byte 0] | some n => [.byte 1, .long n],
     [.byte e.state.place],
     match e.closeSeq with | none => [.byte 0] | some q => [.byte 1, .tick q],
     match e.verdict with | none => [.byte 0] | some v => [.byte 1, .byte v.place],
     [.choice e.flags.loudnessHigh, .choice e.flags.loudnessLow, .choice e.flags.shortTermHigh, .choice e.flags.tooShort,
      .choice e.flags.silent, .choice e.flags.coverageLow, .choice e.flags.lateStart, .choice e.flags.scheduleUnconfirmed]]) ∧
  (∀ (l : Link) (b : Byte) (s : State), s.mayAsk l 2 → ∃ r, exec (.meter l (.fits b)) s = .next { s with li := s.li.passed l 2 r } ∧
    (7 < b.toNat → r = ⟨.badArgument, []⟩) ∧
    (∀ f : Feed, b.toNat = f.val → ∃ effective : List Wire,
      r = ⟨.ok, List.flatten
        [[.byte f.val, .byte (layoutPlace (s.fiu.settings.get f).layout), .choice (s.fiu.settings.get f).enabled],
         match s.fiu.pendingSettings.get f with
         | none => [.byte 0]
         | some y => [.byte 1, .byte (layoutPlace y.layout), .choice y.enabled],
         [.byte (if (s.fiu.lanes.get f).locked then 0 else 1)],
         match (s.fiu.history.get f).getLast? with
         | none => [.byte 0, .byte 0, .signedWord (-999), .signedWord (-999)]
         | some q => [.byte 1, .tick q.tick, .byte 1, .choice q.noInput, .signedWord (lv q.blockEnergy),
             .signedWord (lv (2 * q.shortTermEnergy / 15))],
         match (s.cc.feeds.get f).state with
         | .clear => [.byte 0, .byte 0]
         | .shown g => [.byte 1, .byte 1, .tag g]
         | .stale => [.byte 2, .byte 0],
         [.word (s.cc.feeds.get f).age, .byte (if (s.cc.feeds.get f).carriage then 0 else 1), .word (s.fiu.captionErrors.get f)],
         match s.fiu.frontier with | none => [.byte 0] | some u => [.byte 1, .tick u],
         effective]⟩ ∧
      (∀ u q m h e, s.fiu.frontier = some u → recordAt (s.fiu.history.get f) u = some q → q.membership = some m →
        (h = match m.level2 with | some i => i | none => m.level1) → tableGet s.sg.table h.index = some e →
        (e.openTick = h.openTick → effective = .byte 1 :: .byte h.index :: .tick h.openTick :: .byte e.kind.place ::
          ((match e.segmentId with | none => [.byte 0] | some n => [.byte 1, .long n]) ++ [.byte e.state.place])) ∧
        (e.openTick ≠ h.openTick → effective = [.byte 0])) ∧
      (∀ u q m h, s.fiu.frontier = some u → recordAt (s.fiu.history.get f) u = some q → q.membership = some m →
        (h = match m.level2 with | some i => i | none => m.level1) → tableGet s.sg.table h.index = none → effective = [.byte 0]) ∧
      (∀ u, s.fiu.frontier = some u → (∀ q, recordAt (s.fiu.history.get f) u = some q → q.membership = none) → effective = [.byte 0]) ∧
      (s.fiu.frontier = none → effective = [.byte 0]))) ∧
  (∀ (l : Link) (a : SegmentReadArgs) (s : State), s.mayAsk l 3 →
    ∃ r, exec (.segmentRead l (.fits a)) s = .next { s with li := s.li.passed l 3 r } ∧
      (127 < a.slot.toNat → r = ⟨.badArgument, []⟩) ∧
      (a.slot.toNat ≤ 127 → tableGet s.sg.table a.slot.toNat = none → r = ⟨.notFound, []⟩) ∧
      (∀ e, a.slot.toNat ≤ 127 → tableGet s.sg.table a.slot.toNat = some e →
        (∀ u, a.openTick = some u → u.toNat ≠ e.openTick → r = ⟨.notFound, []⟩) ∧
        ((∀ u, a.openTick = some u → u.toNat = e.openTick) → ∃ loudness : List Wire,
          r = ⟨.ok, List.flatten
            [[.byte a.slot.toNat, .tick e.openTick, .byte e.feed.val, .byte e.kind.place],
             match e.segmentId with | none => [.byte 0] | some n => [.byte 1, .long n],
             [.byte e.state.place],
             match e.lastMember with | none => [.byte 0] | some u => [.byte 1, .tick u],
             if e.kind = .programme then [.byte 1, .long e.partCount] else [.byte 0],
             if e.kind = .adBreak then [.byte 1, .long e.itemCount] else [.byte 0],
             if e.kind = .programme ∨ e.kind = .unscheduled then [.byte 1, .long e.orphanCount] else [.byte 0],
             match e.enclosing with | none => [.byte 0] | some h => [.byte 1, .byte h.index, .tick h.openTick],
             .byte e.limitIndex :: limitFields e.limits,
             [.requirement e.requirement],
             loudness,
             [.long e.memberTicks, .long e.speechTicks, .long e.coveredTicks, .long e.wrongTicks, .long e.gapCount, .long e.longestGap],
             match e.coverage with | none => [.byte 0] | some v => [.byte 1, .signedWord v],
             [.long e.deadAirRuns],
             [.choice e.flags.loudnessHigh, .choice e.flags.loudnessLow, .choice e.flags.shortTermHigh, .choice e.flags.tooShort,
              .choice e.flags.silent, .choice e.flags.coverageLow, .choice e.flags.lateStart, .choice e.flags.scheduleUnconfirmed],
             match e.verdict with | none => [.byte 0] | some v => [.byte 1, .byte v.place],
             match e.closeSeq with | none => [.byte 0] | some q => [.byte 1, .tick q],
             match e.cause with | none => [.byte 0] | some c => [.byte 1, .byte c.1.place, .long c.2]]⟩ ∧
          (e.state = .closed → e.loudness = none → loudness = [.byte 0]) ∧
          (∀ x : Loudness, e.state = .closed → e.loudness = some x → loudness = List.flatten
            [[.byte 1, .long x.qualified, .long x.active, .byte 1, .long x.passing, .signedWord x.maxMomentary],
             match x.maxShortTerm with | none => [.byte 0] | some v => [.byte 1, .signedWord v],
             match x.integrated with | none => [.byte 0] | some v => [.byte 1, .signedWord v]]) ∧
          (e.state ≠ .closed → e.kind = .adBreak → loudness = [.byte 0]) ∧
          (∀ x : Integrator, e.state ≠ .closed → e.kind ≠ .adBreak →
            x = (if e.kind = .item then s.lm.item.get e.feed else s.lm.programme.get e.feed) →
            (x.binding ≠ some ⟨a.slot.toNat, e.openTick⟩ → loudness = [.byte 0]) ∧
            (x.binding = some ⟨a.slot.toNat, e.openTick⟩ → loudness = List.flatten
              [[.byte 1, .long x.qualified, .long x.active, .byte 0, .signedWord x.maxMomentary],
               match x.maxShortTerm with | none => [.byte 0] | some v => [.byte 1, .signedWord v], [.byte 0]]))))) ∧
  (∀ (l : Link) (a : SegmentListArgs) (s : State), s.mayAsk l 4 →
    ∃ r, exec (.segmentList l (.fits a)) s = .next { s with li := s.li.passed l 4 r } ∧
      (a.mask = 0 ∨ 1 < a.selector.toNat → r = ⟨.badArgument, []⟩) ∧
      (∀ u, a.mask ≠ 0 → a.selector = 1 → a.after = some u → ∃ shown : List (Nat × Segment),
        r.status = .ok ∧ (∃ more, r.fields = .byte shown.length :: (shown.map summaryFields).flatten ++ more) ∧
        shown.length ≤ 12 ∧
        (∀ e ∈ shown, e ∈ s.sg.table ∧ e.2.feed ∈ maskFeeds a.mask ∧ e.2.state = .closed ∧ e.2.verdict = some .done ∧
          ∃ q, e.2.closeSeq = some q ∧ u.toNat < q) ∧
        shown.Pairwise (fun x y => x.2.closeSeq.getD 0 ≤ y.2.closeSeq.getD 0)) ∧
      (∀ u, a.mask ≠ 0 → a.selector = 1 → a.after = some u → tableSorted s.sg.table →
        ∃ (shown : List (Nat × Segment)) (reached : Nat) (more : Bool),
        r = ⟨.ok, .byte shown.length :: (shown.map summaryFields).flatten ++ [.tick reached, .choice more]⟩ ∧ shown.length ≤ 12 ∧
        (∀ e ∈ shown, e.2.verdict = some .done ∧ ∃ q, e.2.closeSeq = some q ∧ u.toNat < q) ∧
        (shown = [] → reached = u.toNat) ∧ (∀ e, shown.getLast? = some e → e.2.closeSeq = some reached) ∧
        ∀ beyond : Nat × Segment → Nat → Prop,
          (∀ e q, beyond e q ↔ e ∈ s.sg.table ∧ e.2.feed ∈ maskFeeds a.mask ∧ e.2.state = .closed ∧ e.2.closeSeq = some q ∧ u.toNat < q) →
          (∀ e ∈ shown, ∃ q, beyond e q) ∧
          (∀ e q x v, e ∈ shown → beyond e q → beyond x v → v < q → x ∈ shown) ∧
          (shown.length < 12 → ∀ x v, beyond x v → x ∉ shown →
            ∃ y w, beyond y w ∧ w ≤ v ∧ y.2.verdict ≠ some .done) ∧
          (more = true ↔ ∃ x v, beyond x v ∧ x ∉ shown)) ∧
      (∀ active : Feed → List (Nat × Segment), a.mask ≠ 0 → a.selector = 0 →
        (∀ f, active f = (s.sg.table.find? (fun e => decide (e.2.feed = f ∧ e.2.state = .opened ∧ e.2.kind ≠ .item))).toList
          ++ ((s.sg.table.find? (fun e => decide (e.2.feed = f ∧ e.2.state = .suspended))).toList
          ++ (s.sg.table.find? (fun e => decide (e.2.feed = f ∧ e.2.state = .opened ∧ e.2.kind = .item))).toList)) →
        ∃ (feeds rest : List Feed) (shown : List (Nat × Segment)), maskFeeds a.mask = feeds ++ rest ∧
          shown = (feeds.map active).flatten ∧ shown.length ≤ 12 ∧
          (∀ f, rest.head? = some f → 12 < shown.length + (active f).length) ∧
          r = ⟨.ok, .byte shown.length :: (shown.map summaryFields).flatten
            ++ (match rest.head? with | none => [.byte 0] | some f => [.byte 1, .byte f.val])⟩))

/-! ## Incidents -/

/-- R105: POLICY_WRITE's refusals, what it stores and answers; POLICY_READ shows the entry. (The table holds twelve entries, R104.) -/
def Obligations.PolicyIsWrittenAndRead : Prop :=
  (∀ (l : Link) (a : PolicyWriteArgs) (s : State), s.mayAsk l 33 → s.iu.policy.length = 12 →
    (11 < a.kind.toNat ∨ 2 < a.mode.toNat ∨ 1 < a.autoHold.toNat →
      exec (.policyWrite l (.fits a)) s = .next { s with li := s.li.passed l 33 ⟨.badArgument, []⟩ }) ∧
    (a.kind.toNat ≤ 11 → a.mode.toNat ≤ 2 → a.autoHold.toNat ≤ 1 → ∃ e : PolicyEntry,
      exec (.policyWrite l (.fits a)) s = .next { s with
        iu := { s.iu with policy := s.iu.policy.set a.kind.toNat e }
        li := s.li.passed l 33
          ⟨if (e.preRoll : Int) = a.preRoll.toInt ∧ (e.postRoll : Int) = a.postRoll.toInt then .ok else .clamped,
           [.byte a.kind.toNat, .byte a.mode.toNat, .signedWord e.preRoll, .signedWord e.postRoll,
            .choice (decide (a.autoHold = 1))]⟩ } ∧
      e.mode.place = a.mode.toNat ∧ e.autoHold = decide (a.autoHold = 1) ∧
      (e.preRoll : Int) = max 0 (min 600 a.preRoll.toInt) ∧ (e.postRoll : Int) = max 0 (min 600 a.postRoll.toInt))) ∧
  (∀ (l : Link) (b : Byte) (s : State), s.mayAsk l 8 → s.iu.policy.length = 12 →
    (11 < b.toNat → exec (.policyRead l (.fits b)) s = .next { s with li := s.li.passed l 8 ⟨.badArgument, []⟩ }) ∧
    (∀ e, s.iu.policy[b.toNat]? = some e → exec (.policyRead l (.fits b)) s = .next { s with
      li := s.li.passed l 8 ⟨.ok, [.byte e.mode.place, .signedWord e.preRoll, .signedWord e.postRoll, .choice e.autoHold]⟩ }))

/-- R103, R107 to R112: a report of a MUTED kind is dropped; any other, in a log with room, becomes the newest record with the next serial, OPEN, with its fields copied, marked SCHEDULE_UNCONFIRMED as R111 says, and INCIDENT or
WARNING flagged. Its auto-hold is asked for over the evidence range, and the outcome, index and range of the record are those of the checks of R125. A full log loses one record first: the oldest REVIEWED one, otherwise the
oldest, with its hold. (Reports are taken in any order: log entry 7.
Serials do not wrap: the model's reading, log entry 10.
That it holds also while a stall or a lapse is due, and then still sees the pin of the stalled job and records not yet marked by the lapse, is the model's choice, log entry 4.) -/
def Obligations.ReportsAreDroppedOrRaised : Prop :=
  ∀ (s : State) (a b : List Report) (r : Report) (p : PolicyEntry), s.iu.reports = a ++ r :: b →
    s.iu.policy[r.kind.place]? = some p →
    (p.mode = .muted → exec (.incidentReport a.length) s = .next { s with iu := { s.iu with reports := a ++ b } }) ∧
    (p.mode ≠ .muted → s.iu.log.length < 256 → ∃ t x,
      exec (.incidentReport a.length) s = .next t ∧
      t = { s with
        iu := { s.iu with reports := a ++ b, log := s.iu.log ++ [x], nextSerial := s.iu.nextSerial + 1 }
        ru := t.ru
        li := s.li.raiseAll (if p.mode = .fault then .incident else .warning) } ∧
      x.serial = s.iu.nextSerial ∧ x.kind = r.kind ∧ x.mode = p.mode ∧ x.feed = r.feed ∧ x.handle = r.handle ∧
      x.segmentId = r.segmentId ∧ x.segmentKind = r.segmentKind ∧ x.raiseTick = r.raiseTick ∧ x.subjectFirst = r.subjectFirst ∧
      x.subjectLast = r.subjectLast ∧ x.measured = r.measured ∧ x.limit = r.limit ∧ x.reviewed = false ∧
      (x.unconfirmed = true ↔
        (if r.kind = .subtitleGap ∨ r.kind = .carriageLost ∨ r.kind = .deadAir then
          ∃ h e, r.handle = some h ∧ tableGet s.sg.table h.index = some e ∧ e.openTick = h.openTick ∧ e.flags.scheduleUnconfirmed = true
         else r.unconfirmed = true)) ∧
      (∀ first last floor : Nat, p.autoHold = true → first = r.subjectFirst - p.preRoll → last = r.subjectLast + p.postRoll →
        r.subjectFirst ≤ r.subjectLast → last ≤ s.fiu.openTick + 35999 →
        floor = (match s.rc.spans with | [] => s.fiu.openTick | z :: _ => z.firstTick) →
        if s.ac.state ≠ .recording then x.outcome = .wrongState ∧ x.holdIndex = none
        else if last < floor then x.outcome = .notFound ∧ x.holdIndex = none
        else if s.ru.quota < (s.ru.holds.map (fun e => e.2.last - e.2.first + 1)).sum + (last - max first floor + 1) then
          x.outcome = .quota ∧ x.holdIndex = none
        else if ∀ i : Fin 64, (tableGet s.ru.holds i.val).isSome = true then x.outcome = .full ∧ x.holdIndex = none
        else x.outcome = (if first < floor then .placedClamped else .placed) ∧ x.holdRange = some (max first floor, last) ∧
          ∃ i, x.holdIndex = some i ∧ i < 64 ∧ tableGet s.ru.holds i = none ∧ ∀ j, j < i → tableGet s.ru.holds j ≠ none) ∧
      (p.autoHold = false → t.ru = s.ru ∧ x.outcome = .notRequested ∧ x.holdIndex = none ∧ x.unheld = false) ∧
      (p.autoHold = true → x.holdIndex = none → t.ru = s.ru ∧ x.unheld = true ∧ x.holdRange = none) ∧
      (p.autoHold = true → ∀ i, x.holdIndex = some i → x.unheld = false ∧ ∃ h,
        t.ru = { s.ru with holds := tablePut s.ru.holds i h, counter := s.ru.counter + 1 } ∧ tableGet s.ru.holds i = none ∧
        h.number = s.ru.counter ∧ h.owner = .incident x.serial ∧ x.holdRange = some (h.first, h.last) ∧ h.reason = 0 ∧
        r.subjectFirst - p.preRoll ≤ h.first ∧ h.last = r.subjectLast + p.postRoll)) ∧
    (p.mode ≠ .muted → s.iu.log.length = 256 → logInOrder s → ∃ t y x,
      exec (.incidentReport a.length) s = .next t ∧ y ∈ s.iu.log ∧
      t.iu.log = s.iu.log.filter (fun q => decide (q.serial ≠ y.serial)) ++ [x] ∧ x.serial = s.iu.nextSerial ∧
      (p.autoHold = false → y.holdIndex = none → t.ru = s.ru) ∧
      (∀ i h, y.holdIndex = some i → tableGet s.ru.holds i = some h → h.owner = .incident y.serial →
        tableGet t.ru.holds i ≠ some h ∧ (p.autoHold = false → t.ru = { s.ru with holds := tableErase s.ru.holds i })) ∧
      (y.reviewed = true → t.iu.discardedOpen = s.iu.discardedOpen ∧ ∀ q ∈ s.iu.log, q.reviewed = true → y.serial ≤ q.serial) ∧
      (y.reviewed = false → t.iu.discardedOpen = min (s.iu.discardedOpen + 1) 4294967295 ∧
        ∀ q ∈ s.iu.log, q.reviewed = false ∧ y.serial ≤ q.serial))

/-- R115, R116: a fetch returns up to four retained records from the cursor on, moves the cursor past them, and the skipped count makes up the difference, so that every serial passed is accounted for once; a start serial outside its
range is refused; a record is shown as the fields of R106 in order, those that may be absent with R197's byte before them; no other link's cursor moves.
(That a handle and a hold range, of two parts each, have one such byte: log entry 20. Serials do not wrap: the model's reading, log entry 10.) -/
def Obligations.FetchAccountsForEverySerial : Prop :=
  (∀ x : Incident, incidentFields x = List.flatten
    [[.long x.serial, .byte x.kind.place, .byte x.mode.place],
     match x.feed with | none => [.byte 0] | some f => [.byte 1, .byte f.val],
     match x.handle with | none => [.byte 0] | some h => [.byte 1, .byte h.index, .tick h.openTick],
     match x.segmentId with | none => [.byte 0] | some n => [.byte 1, .long n],
     match x.segmentKind with | none => [.byte 0] | some k => [.byte 1, .byte k.place],
     [.tick x.raiseTick, .tick x.subjectFirst, .tick x.subjectLast],
     match x.measured with | none => [.byte 0] | some v => [.byte 1, .signedTick v],
     match x.limit with | none => [.byte 0] | some v => [.byte 1, .signedTick v],
     [.byte x.outcome.place],
     match x.holdIndex with | none => [.byte 0] | some i => [.byte 1, .byte i],
     match x.holdRange with | none => [.byte 0] | some u => [.byte 1, .tick u.1, .tick u.2],
     [.choice x.unheld, .choice x.unconfirmed, .byte (if x.reviewed = true then 1 else 0)]]) ∧
  (∀ (l : Link) (start : Option (BitVec 32)) (s : State) (k : Nat), s.mayAsk l 5 → logInOrder s →
    (∀ b, start = some b → b = 0 ∨ s.iu.nextSerial < b.toNat →
      exec (.incidentFetch l (.fits start)) s = .next { s with li := s.li.passed l 5 ⟨.badArgument, []⟩ }) ∧
    ((start = none ∧ k = s.iu.cursors.get l) ∨ (∃ b, start = some b ∧ k = b.toNat ∧ b ≠ 0 ∧ b.toNat ≤ s.iu.nextSerial) →
      ∃ shown skipped after more, exec (.incidentFetch l (.fits start)) s = .next { s with
          iu := { s.iu with cursors := s.iu.cursors.set l after }
          li := s.li.passed l 5 ⟨.ok, .byte shown.length :: (shown.map incidentFields).flatten
            ++ [.long skipped, .long after, .choice more, .long (s.iu.nextSerial - 1), .long s.iu.discardedOpen]⟩ } ∧
        shown <+: s.iu.log.filter (fun x => decide (k ≤ x.serial)) ∧ shown.length ≤ 4 ∧
        (shown.length < 4 → shown = s.iu.log.filter (fun x => decide (k ≤ x.serial))) ∧
        after = (match shown.getLast? with | some x => x.serial + 1 | none => s.iu.nextSerial) ∧
        k ≤ after ∧ after ≤ s.iu.nextSerial ∧ after - k = shown.length + skipped ∧ (∀ x ∈ shown, x.serial < after) ∧
        (more = true ↔ shown ≠ [] ∧ ∃ x ∈ s.iu.log, after ≤ x.serial)))

/-- R117: INCIDENT_REVIEW's refusals; a first review makes the record REVIEWED and, on request, gives up its hold; a second changes nothing. -/
def Obligations.ReviewMarksTheRecord : Prop :=
  ∀ (l : Link) (a : IncidentReviewArgs) (s : State) (release : Bool), s.mayAsk l 38 → logInOrder s → a.release.toNat = release.toNat →
    (a.serial = 0 ∨ s.iu.nextSerial ≤ a.serial.toNat →
      exec (.incidentReview l (.fits a)) s = .next { s with li := s.li.passed l 38 ⟨.badArgument, []⟩ }) ∧
    (a.serial ≠ 0 → a.serial.toNat < s.iu.nextSerial → (∀ x ∈ s.iu.log, x.serial ≠ a.serial.toNat) →
      exec (.incidentReview l (.fits a)) s = .next { s with li := s.li.passed l 38 ⟨.notFound, []⟩ }) ∧
    (∀ x ∈ s.iu.log, x.serial = a.serial.toNat → a.serial ≠ 0 →
      (x.reviewed = true →
        exec (.incidentReview l (.fits a)) s = .next { s with li := s.li.passed l 38 ⟨.ok, incidentFields x⟩ }) ∧
      (x.reviewed = false → ∃ t y, exec (.incidentReview l (.fits a)) s = .next t ∧
        t = { s with
          iu := { s.iu with log := s.iu.log.map (fun z => if z.serial = x.serial then y else z) }
          ru := t.ru
          li := s.li.passed l 38 ⟨.ok, incidentFields y⟩ } ∧
        (release = false ∨ x.holdIndex = none → t.ru = s.ru ∧ y = { x with reviewed := true }) ∧
        (∀ i, release = true → x.holdIndex = some i →
          y = { x with reviewed := true, holdIndex := none, unheld := true } ∧
          (∀ h, tableGet s.ru.holds i = some h → h.owner = .incident x.serial →
            t.ru = { s.ru with holds := tableErase s.ru.holds i }) ∧
          ((∀ h, tableGet s.ru.holds i = some h → h.owner ≠ .incident x.serial) → t.ru = s.ru))))

/-- R107, R112, R114: the log stays ordered and bounded, the cursors stay in range, and incident holds and records stay paired, at every step from every state in which they are so. -/
def Obligations.IncidentsAreKeptWhole : Prop :=
  ∀ s t : State, incidentsKeptWhole s → step s = .next t → incidentsKeptWhole t

/-! ## Retention holds -/

/-- R125, R126, R127, R122: HOLD_PLACE's checks in their order, and a placed hold: lowest free entry, next number, its range clamped at the retention floor; the reply with index, number, range, committed pages, quota and the
sum after it.
(Hold numbers do not wrap: the model's reading, log entry 10.
That it holds also while a stall is due, and then still sees the pin of the stalled job, is the model's choice, log entry 4.) -/
def Obligations.HoldPlacementChecksInOrder : Prop :=
  ∀ (l : Link) (a : HoldPlaceArgs) (s : State) (floor : Nat), s.mayAsk l 36 →
    floor = (match s.rc.spans with | [] => s.fiu.openTick | x :: _ => x.firstTick) →
    ∃ t r, exec (.holdPlace l (.fits a)) s = .next t ∧ t = { s with ru := t.ru, li := s.li.passed l 36 r } ∧
      (if a.last.toNat < a.first.toNat then t.ru = s.ru ∧ r = ⟨.badArgument, []⟩
       else if s.ac.state ≠ .recording then t.ru = s.ru ∧ r = ⟨.wrongState, []⟩
       else if a.last.toNat < floor then t.ru = s.ru ∧ r = ⟨.notFound, []⟩
       else if s.fiu.openTick + 35999 < a.last.toNat then t.ru = s.ru ∧ r = ⟨.tooFar, []⟩
       else if s.ru.quota < (s.ru.holds.map (fun e => e.2.last - e.2.first + 1)).sum
          + (a.last.toNat - max a.first.toNat floor + 1) then t.ru = s.ru ∧ r = ⟨.quota, []⟩
       else if ∀ i : Fin 64, (tableGet s.ru.holds i.val).isSome = true then t.ru = s.ru ∧ r = ⟨.full, []⟩
       else ∃ i, i < 64 ∧ tableGet s.ru.holds i = none ∧ (∀ j, j < i → tableGet s.ru.holds j ≠ none) ∧
         t.ru = { s.ru with
           holds := tablePut s.ru.holds i
             ⟨s.ru.counter, .link l, max a.first.toNat floor, a.last.toNat, a.reason.toNat⟩
           counter := s.ru.counter + 1 } ∧
         r = ⟨if a.first.toNat < floor then .clamped else .ok,
           [.byte i, .long s.ru.counter, .tick (max a.first.toNat floor), .tick a.last.toNat,
            .long (a.last.toNat - max a.first.toNat floor + 1), .long s.ru.quota,
            .long ((s.ru.holds.map (fun e => e.2.last - e.2.first + 1)).sum + (a.last.toNat - max a.first.toNat floor + 1))]⟩)

/-- R128, R129, R134: HOLD_RELEASE's table by owner, its reply the hold as it stood and the sum after it (an owner is its kind and then its number: log entry 20), and HOLD_LIST, which changes nothing: it shows every hold from its start index on, up to eight, the index to go on at when more lie beyond, and the figures of the table.
(That it holds also while a stall is due, and then still sees the pin of the stalled job, is the model's choice, log entry 4.) -/
def Obligations.HoldReleaseFollowsItsOwner : Prop :=
  (∀ (i : Nat) (h : Hold), holdFields (i, h) = List.flatten
    [[.byte i, .long h.number],
     match h.owner with | .link m => [.byte 0, .byte m.val] | .incident n => [.byte 1, .long n] | .job n => [.byte 2, .long n],
     [.tick h.first, .tick h.last, .long (h.last - h.first + 1), .word h.reason]]) ∧
  (∀ (l : Link) (a : HoldReleaseArgs) (s : State), s.mayAsk l 37 →
    (63 < a.index.toNat → exec (.holdRelease l (.fits a)) s = .next { s with li := s.li.passed l 37 ⟨.badArgument, []⟩ }) ∧
    (a.index.toNat ≤ 63 → tableGet s.ru.holds a.index.toNat = none →
      exec (.holdRelease l (.fits a)) s = .next { s with li := s.li.passed l 37 ⟨.notFound, []⟩ }) ∧
    (∀ h, a.index.toNat ≤ 63 → tableGet s.ru.holds a.index.toNat = some h →
      (a.number ≠ 0 → a.number.toNat ≠ h.number →
        exec (.holdRelease l (.fits a)) s = .next { s with li := s.li.passed l 37 ⟨.notFound, []⟩ }) ∧
      (a.number = 0 ∨ a.number.toNat = h.number →
        (∀ j, h.owner = .job j →
          exec (.holdRelease l (.fits a)) s = .next { s with li := s.li.passed l 37 ⟨.wrongState, []⟩ }) ∧
        (∀ m, h.owner = .link m → exec (.holdRelease l (.fits a)) s = .next { s with
          ru := { s.ru with holds := tableErase s.ru.holds a.index.toNat }
          li := s.li.passed l 37 ⟨.ok,
            [.byte a.index.toNat, .long h.number, .byte 0, .byte m.val, .tick h.first, .tick h.last, .long (h.last - h.first + 1),
             .word h.reason, .long ((tableErase s.ru.holds a.index.toNat).map (fun e => e.2.last - e.2.first + 1)).sum]⟩ }) ∧
        (∀ n, h.owner = .incident n → exec (.holdRelease l (.fits a)) s = .next { s with
          ru := { s.ru with holds := tableErase s.ru.holds a.index.toNat }
          iu := { s.iu with log := s.iu.log.map (fun x => if x.serial = n then { x with holdIndex := none, unheld := true } else x) }
          li := s.li.passed l 37 ⟨.ok,
            [.byte a.index.toNat, .long h.number, .byte 1, .long n, .tick h.first, .tick h.last, .long (h.last - h.first + 1),
             .word h.reason, .long ((tableErase s.ru.holds a.index.toNat).map (fun e => e.2.last - e.2.first + 1)).sum]⟩ })))) ∧
  (∀ (l : Link) (b : Byte) (s : State), s.mayAsk l 6 → ∃ r,
    exec (.holdList l (.fits b)) s = .next { s with li := s.li.passed l 6 r } ∧ (63 < b.toNat → r = ⟨.badArgument, []⟩) ∧
    (b.toNat ≤ 63 → r.status = .ok ∧ ∃ shown more, shown <+: s.ru.holds.filter (fun e => decide (b.toNat ≤ e.1)) ∧
      shown.length ≤ 8 ∧ r.fields = .byte shown.length :: (shown.map holdFields).flatten ++ more ∧
      (shown.length < 8 → shown = s.ru.holds.filter (fun e => decide (b.toNat ≤ e.1))) ∧
      ∃ next floor horizon : List Wire,
        (shown = s.ru.holds.filter (fun e => decide (b.toNat ≤ e.1)) → next = [.byte 0]) ∧
        (shown ≠ s.ru.holds.filter (fun e => decide (b.toNat ≤ e.1)) → ∃ e, shown.getLast? = some e ∧ next = [.byte 1, .byte (e.1 + 1)]) ∧
        (s.ac.state ≠ .recording → floor = [.byte 0] ∧ horizon = [.byte 0]) ∧
        (s.ac.state = .recording → horizon = [.byte 1, .tick (s.fiu.openTick + 35999)] ∧
          floor = [.byte 1, .tick (match s.rc.spans with | [] => s.fiu.openTick | x :: _ => x.firstTick)]) ∧
        more = [next, [.word s.ru.holds.length, .long (s.ru.holds.map (fun e => e.2.last - e.2.first + 1)).sum, .long s.ru.quota,
          .long s.ru.healthyPages, .choice (decide (s.ru.quota < (s.ru.holds.map (fun e => e.2.last - e.2.first + 1)).sum))],
          floor, horizon].flatten))

/-- R121: a hold is not widened, narrowed or moved: after a step each entry is as it was, or free, or holds a new hold with a number not issued before.
(Hold numbers do not wrap: the model's reading, log entry 10.) -/
def Obligations.HoldsAreNeverAltered : Prop :=
  ∀ (s t : State) (i : Nat) (h : Hold), holdsInOrder s → step s = .next t → tableGet s.ru.holds i = some h →
    tableGet t.ru.holds i = some h ∨ tableGet t.ru.holds i = none ∨
      ∃ g, tableGet t.ru.holds i = some g ∧ s.ru.counter ≤ g.number

/-! ## Off-air recording -/

/-- R143 to R145, R147, R149, R164, R171: the Recorder never writes a page whose stored tick is held, nor one outside a HEALTHY group: whenever a grant starts a record write, its page was writable, and the write position moves
past it; it is granted ahead of the other requesters. With no writable page the tick is unrecorded. Otherwise the first writable page from the write position round is taken: the tick it stores leaves its span, which shrinks,
splits or goes; when the Span List would overflow by one, the oldest span without a held tick makes room, and when too few are without one the step is undone, but for the spans discarded, and the tick unrecorded.
(That it holds also while a stall is due, and then still sees the pin of the stalled job, is the model's choice, log entry 4.) -/
def Obligations.WriterSparesHeldPages : Prop :=
  (∀ (s : State) (w : PageWrite) (rest : List PageWrite), s.ac.access = none → s.rc.writes = w :: rest →
     ∃ t, exec .recordWriteGrant s = .next t ∧ t.rc.writes = rest ∧
       (t.ac.access = none → t.rc.writePos = s.rc.writePos ∧ t.rc.stall = true) ∧
       (∀ x, t.ac.access = some x → ∃ p g, x = ⟨.record w p, g, p % 524288, false⟩ ∧ p < 524288 * s.ac.bank.length ∧
         s.ac.bank[p / 524288]? = some g ∧ (s.ac.groups.get g).state = .healthy ∧
         (∀ u, storedTick s.rc.spans p = some u →
           ∀ e ∈ s.ru.holds, ¬ (e.2.first ≤ u ∧ u ≤ e.2.last)) ∧
         t.rc.writePos = (if p + 1 = 524288 * s.ac.bank.length then 0 else p + 1)) ∧
       t.ru = s.ru ∧ t.fiu = s.fiu ∧ t.su = s.su ∧ t.sg = s.sg ∧ t.xu = s.xu ∧ t.li = s.li ∧ t.ac.dram = s.ac.dram) ∧
  (∀ (s : State) (w : PageWrite) (rest : List PageWrite) (writable : Nat → Prop), s.ac.access = none → s.rc.writes = w :: rest →
    (∀ p, writable p ↔ ∃ g, s.ac.bank[p / 524288]? = some g ∧ (s.ac.groups.get g).state = .healthy ∧
      ∀ u, storedTick s.rc.spans p = some u → ∀ e ∈ s.ru.holds, ¬ (e.2.first ≤ u ∧ u ≤ e.2.last)) →
    ((∀ p, p < 524288 * s.ac.bank.length → ¬ writable p) →
      ∃ t, exec .recordWriteGrant s = .next t ∧ t = { s with
        rc := { s.rc with writes := rest, stall := true }
        iu := { s.iu with reports := s.iu.reports ++
          (if s.rc.stall = true then [] else [⟨.recordStall, none, none, none, none, w.tick, w.tick, w.tick, none, none, false⟩]) } }) ∧
    (∀ (k p : Nat) (left right spans : List Span) (grows : Bool), k < 524288 * s.ac.bank.length →
      p = (s.rc.writePos + k) % (524288 * s.ac.bank.length) → writable p →
      (∀ j, j < k → ¬ writable ((s.rc.writePos + j) % (524288 * s.ac.bank.length))) →
      ((∀ x ∈ s.rc.spans, ¬ (x.firstPage ≤ p ∧ p < x.firstPage + x.length)) ∧ spans = s.rc.spans ∨
        ∃ a x b, s.rc.spans = a ++ x :: b ∧ x.firstPage ≤ p ∧ p < x.firstPage + x.length ∧
          (∀ y ∈ a ++ b, ¬ (y.firstPage ≤ p ∧ p < y.firstPage + y.length)) ∧ spans = a ++ (left ++ (right ++ b)) ∧
          left = (if x.firstPage = p then [] else [⟨x.firstTick, x.firstPage, p - x.firstPage⟩]) ∧
          right = (if p + 1 = x.firstPage + x.length then []
            else [⟨x.firstTick + (p - x.firstPage) + 1, p + 1, x.length - (p - x.firstPage) - 1⟩])) →
      (grows = true ↔ ∃ x, spans.getLast? = some x ∧ p = x.firstPage + x.length ∧ w.tick = x.firstTick + x.length) →
      (spans.length + (if grows then 0 else 1) ≤ 512 → ∃ t g, exec .recordWriteGrant s = .next t ∧ s.ac.bank[p / 524288]? = some g ∧
        t = { s with
          rc := { s.rc with
            writes := rest, spans := spans, discarded := min s.rc.discarded 4294967295
            writePos := if p + 1 = 524288 * s.ac.bank.length then 0 else p + 1 }
          ac := { s.ac with
            access := some ⟨.record w p, g, p % 524288, false⟩
            damaged := s.ac.damaged.filter (fun e => (pageOf spans e.2).isSome) } }) ∧
      (∀ (a b : List Span) (x : Span), spans.length + (if grows then 0 else 1) = 513 → spans = a ++ x :: b →
        (grows = true → b ≠ []) → (∀ y ∈ a, ∃ e ∈ s.ru.holds, e.2.first ≤ y.firstTick + y.length - 1 ∧ y.firstTick ≤ e.2.last) →
        (∀ e ∈ s.ru.holds, ¬ (e.2.first ≤ x.firstTick + x.length - 1 ∧ x.firstTick ≤ e.2.last)) →
        ∃ t g, exec .recordWriteGrant s = .next t ∧ s.ac.bank[p / 524288]? = some g ∧
          t.ac.access = some ⟨.record w p, g, p % 524288, false⟩ ∧ t.rc.spans = a ++ b ∧
          t.rc.discarded = min (s.rc.discarded + 1) 4294967295 ∧ t.iu = s.iu) ∧
      (∀ (a b : List Span) (x o : Span), spans.length + (if grows then 0 else 1) = 514 → spans = a ++ x :: b →
        (∀ y ∈ (if grows then (a ++ b).dropLast else a ++ b),
          ∃ e ∈ s.ru.holds, e.2.first ≤ y.firstTick + y.length - 1 ∧ y.firstTick ≤ e.2.last) →
        (grows = true → b ≠ []) → (∀ e ∈ s.ru.holds, ¬ (e.2.first ≤ x.firstTick + x.length - 1 ∧ x.firstTick ≤ e.2.last)) →
        o ∈ s.rc.spans → o.firstPage ≤ p → p < o.firstPage + o.length →
        ∃ t, exec .recordWriteGrant s = .next t ∧ t.ac.access = none ∧ t.rc.stall = true ∧ t.rc.writePos = s.rc.writePos ∧
          t.rc.discarded = min (s.rc.discarded + 1) 4294967295 ∧
          (o.firstTick ≤ x.firstTick ∧ x.firstTick < o.firstTick + o.length → t.rc.spans = a ++ b) ∧
          (¬ (o.firstTick ≤ x.firstTick ∧ x.firstTick < o.firstTick + o.length) →
            t.rc.spans = s.rc.spans.filter (fun y => decide (y ≠ x)))) ∧
      (512 < spans.length + (if grows then 0 else 1) →
        (∀ y ∈ (if grows then spans.dropLast else spans),
          ∃ e ∈ s.ru.holds, e.2.first ≤ y.firstTick + y.length - 1 ∧ y.firstTick ≤ e.2.last) →
        ∃ t, exec .recordWriteGrant s = .next t ∧ t.ac.access = none ∧
          t.rc = { s.rc with writes := rest, stall := true, discarded := min s.rc.discarded 4294967295 } ∧
          t.iu = { s.iu with reports := s.iu.reports ++
            (if s.rc.stall = true then [] else [⟨.recordStall, none, none, none, none, w.tick, w.tick, w.tick, none, none, false⟩]) })))

/-- R146, R149: a completed write makes its tick present on its page, growing the newest span or starting one, and clears the stall mark; every word of the page then holds its data's codeword, and no word outside the page
changes. A write that ARCHIVE_RESET abandoned (R154) runs to its end in the memory and adds no tick. (That byte 8w of a page is the most significant of word w: log entry 12.) -/
def Obligations.WriteCompletionMakesTheTickPresent : Prop :=
  (∀ (s : State) (w : PageWrite) (p page : Nat) (g : Group), s.ac.access = some ⟨.record w p, g, page, false⟩ →
     (∀ x ∈ s.rc.spans, ¬ (x.firstTick ≤ w.tick ∧ w.tick < x.firstTick + x.length) ∧
       ¬ (x.firstPage ≤ p ∧ p < x.firstPage + x.length) ∧ 0 < x.length) →
     ∃ t, exec .recordWriteCompletion s = .next t ∧ t.ac.access = none ∧ t.rc.stall = false ∧
       pageOf t.rc.spans w.tick = some p ∧ storedTick t.rc.spans p = some w.tick ∧
       (t.rc.spans.length = s.rc.spans.length ∨ t.rc.spans.length = s.rc.spans.length + 1) ∧
       (∀ u, u ≠ w.tick → pageOf t.rc.spans u = pageOf s.rc.spans u) ∧
       (∀ i, i < 1024 → tableGet t.ac.dram (((g.val * 524288) + page) * 1024 + i) =
         some (lanesOf (s.ac.spareOf g page).lane (wordOfBytes ((w.bytes.drop (8 * i)).take 8)))) ∧
       (∀ a, a < ((g.val * 524288) + page) * 1024 ∨ ((g.val * 524288) + page) * 1024 + 1024 ≤ a →
         tableGet t.ac.dram a = tableGet s.ac.dram a) ∧
       t.ru = s.ru ∧ t.iu = s.iu ∧ t.xu = s.xu ∧ t.li = s.li ∧ t.ac.groups = s.ac.groups ∧ t.fiu = s.fiu ∧ t.lm = s.lm ∧
       t.cc = s.cc ∧ t.su = s.su ∧ t.sg = s.sg) ∧
  (∀ (s : State) (w : PageWrite) (p page : Nat) (g : Group), s.ac.access = some ⟨.record w p, g, page, true⟩ →
    ∃ t, exec .recordWriteCompletion s = .next t ∧ t = { s with ac := { s.ac with access := none, dram := t.ac.dram } } ∧
      (∀ i, i < 1024 → tableGet t.ac.dram (((g.val * 524288) + page) * 1024 + i) =
        some (lanesOf (s.ac.spareOf g page).lane (wordOfBytes ((w.bytes.drop (8 * i)).take 8)))) ∧
      (∀ a, a < ((g.val * 524288) + page) * 1024 ∨ ((g.val * 524288) + page) * 1024 + 1024 ≤ a →
        tableGet t.ac.dram a = tableGet s.ac.dram a))

/-! ## Archive memory -/

/-- R156 to R159, R162, R168: ARCHIVE_MAP, ARCHIVE_TEST, ARCHIVE_RECORD and SPARE_LANE_SET: the states that accept them, what each does to the archive state, the bank, the group states and counts, and the ARCHIVE
flag, and their replies: the bank (its four slots: log entry 20), the installed and healthy pages, the entry in force. (Which of BAD_ARGUMENT and WRONG_STATE comes first where both hold: log entry 38; ARCHIVE_MAP's payload is its list's bytes, at any length: log entry 18.
That ARCHIVE_MAP, and ARCHIVE_TEST for a group outside the bank, leave a fault mark as it stands: the model's reading, log entry 40.) -/
def Obligations.ArchiveStateMovesOnRequest : Prop :=
  (∀ (l : Link) (bs : List Byte) (s : State), s.mayAsk l 43 →
    (s.ac.state = .testing ∨ s.ac.state = .recording →
      exec (.archiveMap l bs) s = .next { s with li := s.li.passed l 43 ⟨.wrongState, []⟩ }) ∧
    (s.ac.state ≠ .testing → s.ac.state ≠ .recording →
      (bs = [] ∨ 4 < bs.length ∨ (∃ b ∈ bs, 3 < b.toNat) ∨ ¬ bs.Nodup →
        exec (.archiveMap l bs) s = .next { s with li := s.li.passed l 43 ⟨.badArgument, []⟩ }) ∧
      (∀ gs : List Group, gs ≠ [] → gs.Nodup → bs.map BitVec.toNat = gs.map Fin.val → ∃ t,
        exec (.archiveMap l bs) s = .next t ∧
        t = { s with
          ac := { s.ac with state := .mapped, bank := gs, groups := t.ac.groups }
          ru := { s.ru with healthyPages := 0, quota := 0 }
          li := (s.li.passed l 43 ⟨.ok, ((List.range 4).map (fun i =>
            match gs[i]? with | none => [.byte 0] | some g => [.byte 1, .byte g.val])).flatten ++ [.long (524288 * gs.length)]⟩).raiseAll
            .archive } ∧
        ∀ g, (g ∈ gs → t.ac.groups.get g = { s.ac.groups.get g with state := .untested, corrected := 0, uncorrectable := 0 }) ∧
          (g ∉ gs → t.ac.groups.get g = { s.ac.groups.get g with state := .absent })))) ∧
  (∀ (l : Link) (s : State), s.mayAsk l 44 →
    (s.ac.state ≠ .mapped → s.ac.state ≠ .tested →
      exec (.archiveTest l (.fits ())) s = .next { s with li := s.li.passed l 44 ⟨.wrongState, []⟩ }) ∧
    (s.ac.state = .mapped ∨ s.ac.state = .tested → ∃ t, exec (.archiveTest l (.fits ())) s = .next t ∧
      t = { s with
        ac := { s.ac with state := .testing, test := some ⟨0, 0, false⟩, testRequest := true, groups := t.ac.groups }
        ru := { s.ru with healthyPages := 0, quota := 0 }
        li := (s.li.passed l 44 ⟨.ok, [.long (524288 * s.ac.bank.length)]⟩).raiseAll .archive } ∧
      ∀ g, (g ∈ s.ac.bank → t.ac.groups.get g = ⟨.untested, 0, 0, false⟩) ∧
        (g ∉ s.ac.bank → t.ac.groups.get g = s.ac.groups.get g))) ∧
  (∀ (l : Link) (s : State), s.mayAsk l 45 →
    (s.ac.state ≠ .tested →
      exec (.archiveRecord l (.fits ())) s = .next { s with li := s.li.passed l 45 ⟨.wrongState, []⟩ }) ∧
    (s.ac.state = .tested → exec (.archiveRecord l (.fits ())) s = .next { s with
      ac := { s.ac with state := .recording, scrub := none }
      rc := { s.rc with writePos := 0, stall := false }
      li := (s.li.passed l 45 ⟨.ok, [.long (524288 * s.ac.bank.length), .long s.ru.healthyPages]⟩).raiseAll .archive })) ∧
  (∀ (l : Link) (a : SpareLaneSetArgs) (s : State), s.mayAsk l 47 →
    (3 < a.group.toNat ∨ 15 < a.rowBlock.toNat ∨ (∃ k, a.lane = some k ∧ 72 < k.toNat) →
      exec (.spareLaneSet l (.fits a)) s = .next { s with li := s.li.passed l 47 ⟨.badArgument, []⟩ }) ∧
    (∀ (g : Group) (q : Bool) (n : Option Nat), a.group.toNat = g.val → a.rowBlock.toNat < 16 → a.quiet.toNat = q.toNat →
      (a.lane = none ∧ n = none ∨ a.lane = some 72 ∧ n = none ∨ (∃ k, a.lane = some k ∧ k.toNat < 72 ∧ n = some k.toNat)) →
      (s.ac.state = .mapped ∨ s.ac.state = .tested → exec (.spareLaneSet l (.fits a)) s = .next { s with
        ac := { s.ac with spares := s.ac.spares.set g ((s.ac.spares.get g).set a.rowBlock.toNat ⟨n, q⟩) }
        li := s.li.passed l 47 ⟨.ok, (match n with | none => [.byte 0] | some k => [.byte 1, .byte k]) ++ [.choice q]⟩ }) ∧
      (s.ac.state ≠ .mapped → s.ac.state ≠ .tested →
        exec (.spareLaneSet l (.fits a)) s = .next { s with li := s.li.passed l 47 ⟨.wrongState, []⟩ })))

/-- R120, R136, R154, R163, R186: ARCHIVE_RESET empties the Span List, the holds and the Damaged Page List, leaves the archive MAPPED with its groups UNTESTED and quota 0, abandons the access in progress, withdraws every waiting request,
and leaves at most the job that is sending, marked ENDING; every other job ends ABORTED, in queue order, and is its link's last ending, with EXPORT flagged. (The job count of the reply takes
in the job that still finishes its record: the model's reading, log entry 30. With no stall due, log entry 4.
That the stall timer and XD stay as they stand when a reading job ends: the model's choice, log entries 53 and 54.) -/
def Obligations.ArchiveResetEmptiesTheArchive : Prop :=
  ∀ (l : Link) (s : State), s.mayAsk l 46 → s.xu.stallDue = false →
    (s.ac.state = .unmapped → exec (.archiveReset l (.fits ())) s = .next { s with li := s.li.passed l 46 ⟨.wrongState, []⟩ }) ∧
    (s.ac.state ≠ .unmapped → ∃ t, exec (.archiveReset l (.fits ())) s = .next t ∧
      t.xu.jobs.length ≤ 1 ∧ (∀ j ∈ t.xu.jobs, j.phase = .ending) ∧
      t.ac.state = .mapped ∧ t.ac.bank = s.ac.bank ∧ t.ac.spares = s.ac.spares ∧ t.ac.capture = s.ac.capture ∧
      t.ac.dram = s.ac.dram ∧ t.ac.test = none ∧ t.ac.damaged = [] ∧ t.ac.scrub = none ∧
      t.ac.access = s.ac.access.map (fun x => { x with abandoned := true }) ∧
      t.ac.exportRequest = none ∧ t.ac.scrubRequest = none ∧ t.ac.testRequest = false ∧
      (∀ g, t.ac.groups.get g = { s.ac.groups.get g with
        state := if g ∈ s.ac.bank then .untested else (s.ac.groups.get g).state, faultMark := false }) ∧
      t.ru = { s.ru with holds := [], healthyPages := 0, quota := 0 } ∧
      t.rc = { s.rc with spans := [], discarded := 0, writePos := 0, stall := false, writes := [] } ∧
      t.iu = { s.iu with
        log := s.iu.log.map (fun x => if x.holdIndex.isSome then { x with holdIndex := none, unheld := true } else x) } ∧
      t.fiu = s.fiu ∧ t.lm = s.lm ∧ t.cc = s.cc ∧ t.su = s.su ∧ t.sg = s.sg ∧ t.xu.counter = s.xu.counter ∧
      (s.xu.jobs = [] → t.xu = s.xu ∧ t.li = (s.li.passed l 46
        ⟨.ok, [.byte s.ac.state.place, .word s.rc.spans.length, .word s.ru.holds.length, .word 0]⟩).raiseAll .archive) ∧
      (∀ m, (t.li.links.get m).flags.archive = true) ∧
      t.li.replies = s.li.replies ++ [⟨l, s.li.nextRequest,
        ⟨.ok, [.byte s.ac.state.place, .word s.rc.spans.length, .word s.ru.holds.length, .word s.xu.jobs.length]⟩⟩] ∧
      (∀ kept aborted : List Job, (s.xu.jobs.map (·.number)).Nodup →
        (s.xu.jobs = [] → kept = [] ∧ aborted = []) →
        (∀ j rest, s.xu.jobs = j :: rest → j.phase = .sending ∨ j.phase = .ending →
          kept = [{ j with phase := .ending }] ∧ aborted = rest) →
        (∀ j rest, s.xu.jobs = j :: rest → j.phase ≠ .sending → j.phase ≠ .ending → kept = [] ∧ aborted = j :: rest) →
        t.xu = { s.xu with jobs := kept, endings := t.xu.endings } ∧
        ∀ m, t.xu.endings.get m =
            (match (aborted.filter (fun j => decide (j.link = m))).getLast? with
             | some j => some ⟨j.number, .aborted, j.sent, j.damaged, j.unavailable, j.absent⟩
             | none => s.xu.endings.get m) ∧
          t.li.links.get m = { (s.li.passed l 46 ⟨.ok, []⟩).links.get m with
            flags := { (s.li.links.get m).flags with
              archive := true, exports := (s.li.links.get m).flags.exports || aborted.any (fun j => decide (j.link = m)) } }))

/-- R151, R169, R176: CAPTURE_READ and ARCHIVE_READ change nothing but the slot, CAPTURE_CLEAR empties the record and returns its fields; the sections and positions that ARCHIVE_READ refuses; the items of SUMMARY; SPANS and
DAMAGED show every item from the position on, up to eight, and the number beyond those shown; SPARE_LANES shows the entries of the group. (The four slots of the Bank Map: log entry 20; fixed runs have no number before them,
the entries of SPARE_LANES have: log entry 48; a page in four bytes, a word offset in two: log entry 49.
A fault mark shows as set only for a mapped group: the model's reading, log entry 40.
That it holds also while a stall is due, and then still sees the pin of the stalled job, is the model's choice, log entry 4.) -/
def Obligations.CaptureAndConditionAreRead : Prop :=
  (∀ (l : Link) (s : State), s.mayAsk l 10 → ∃ fields,
    exec (.captureRead l (.fits ())) s = .next { s with li := s.li.passed l 10 ⟨.ok, fields⟩ } ∧
    (s.ac.capture = none → fields = [.byte 0]) ∧
    (∀ c, s.ac.capture = some c → fields =
      [.byte 1, .byte c.group.val, .long c.page, .word c.word, .byte c.syndrome.toNat, .byte c.kind.place, .byte c.requester.place])) ∧
  (∀ (l : Link) (s : State), s.mayAsk l 41 → ∃ fields,
    exec (.captureClear l (.fits ())) s = .next { s with ac := { s.ac with capture := none }, li := s.li.passed l 41 ⟨.ok, fields⟩ } ∧
    (s.ac.capture = none → fields = [.byte 0]) ∧
    (∀ c, s.ac.capture = some c → fields =
      [.byte 1, .byte c.group.val, .long c.page, .word c.word, .byte c.syndrome.toNat, .byte c.kind.place, .byte c.requester.place])) ∧
  (∀ (l : Link) (a : ArchiveReadArgs) (s : State), s.mayAsk l 9 → ∃ r,
    exec (.archiveRead l (.fits a)) s = .next { s with li := s.li.passed l 9 r } ∧
    (r = ⟨.badArgument, []⟩ ∧
        (3 < a.part.toNat ∨ (a.part = 0 ∧ a.position ≠ 0) ∨ (a.part = 1 ∧ 511 < a.position.toNat) ∨
          (a.part = 2 ∧ 63 < a.position.toNat) ∨ (a.part = 3 ∧ 3 < a.position.toNat)) ∨
      r.status = .ok ∧
        ((a.part = 0 ∧ a.position = 0 ∧ ∃ test inFlight : List Wire,
            r.fields = List.flatten
              [[.byte s.ac.state.place],
               ((List.range 4).map (fun i => match s.ac.bank[i]? with | none => [.byte 0] | some g => [.byte 1, .byte g.val])).flatten,
               [.long (524288 * s.ac.bank.length), .long s.ru.healthyPages],
               ((List.range 4).map (fun i => [.byte (s.ac.groups.get (Fin.ofNat 4 i)).state.place,
                 .word (s.ac.groups.get (Fin.ofNat 4 i)).corrected, .word (s.ac.groups.get (Fin.ofNat 4 i)).uncorrectable])).flatten,
               test,
               match s.ac.scrub with | none => [.byte 0] | some c => [.byte 1, .byte c.index, .long c.number, .tick c.next],
               [.word s.ac.damaged.length, .choice s.ac.capture.isSome, .long s.rc.writePos, .word s.rc.spans.length],
               match s.rc.spans.head? with | none => [.byte 0] | some x => [.byte 1, .tick x.firstTick],
               match s.rc.spans.getLast? with | none => [.byte 0] | some x => [.byte 1, .tick (x.firstTick + x.length - 1)],
               [.long s.rc.discarded, .choice s.rc.stall], inFlight, [.word 0]] ∧
            (s.ac.state ≠ .testing ∨ s.ac.test = none → test = [.byte 0]) ∧
            (∀ x, s.ac.state = .testing → s.ac.test = some x → test = .byte 1 :: .byte x.slot :: .long x.page ::
              (List.range 4).map (fun i =>
                .choice (decide (Fin.ofNat 4 i ∈ s.ac.bank) && (s.ac.groups.get (Fin.ofNat 4 i)).faultMark))) ∧
            (∀ w p g page, s.ac.access = some ⟨.record w p, g, page, false⟩ → inFlight = [.byte 1, .tick w.tick, .choice w.retry]) ∧
            ((∀ w p g page, s.ac.access ≠ some ⟨.record w p, g, page, false⟩) → inFlight = [.byte 0])) ∨
         (a.part = 1 ∧ a.position.toNat ≤ 511 ∧ ∃ shown more, shown <+: s.rc.spans.drop a.position.toNat ∧ shown.length ≤ 8 ∧
            r.fields = .byte shown.length :: (shown.map (fun x => [.tick x.firstTick, .long x.firstPage, .long x.length,
              .long ((s.ac.bank.zipIdx.map (fun e => if (s.ac.groups.get e.1).state = .faulted then
                min (x.firstPage + x.length) (524288 * (e.2 + 1)) - max x.firstPage (524288 * e.2) else 0)).sum)])).flatten ++ more ∧
            (shown.length < 8 → shown = s.rc.spans.drop a.position.toNat) ∧
            more = [.word (s.rc.spans.length - a.position.toNat - shown.length)]) ∨
         (a.part = 2 ∧ a.position.toNat ≤ 63 ∧ ∃ shown more, shown <+: s.ac.damaged.drop a.position.toNat ∧ shown.length ≤ 8 ∧
            r.fields = .byte shown.length ::
              (shown.map (fun e => [.long e.1, .tick e.2, .choice (isHeld s.ru.holds e.2)])).flatten ++ more ∧
            (shown.length < 8 → shown = s.ac.damaged.drop a.position.toNat) ∧
            more = [.word (s.ac.damaged.length - a.position.toNat - shown.length)]) ∨
         (a.part = 3 ∧ ∃ g : Group, a.position.toNat = g.val ∧
            r.fields = .byte (s.ac.spares.get g).length :: (((s.ac.spares.get g).map (fun e =>
              (match e.lane with | none => [.byte 0] | some k => [.byte 1, .byte k]) ++ [.choice e.quiet])).flatten ++ [.word 0])))))

/-- R148, R149, R161, R163, R165, R169, R175: an access that ends in TIMEOUT while RECORDING faults its group, lowers the quota, flags ARCHIVE and is captured when the record is empty. A first write attempt asks for the bus again
and changes no span; a retry leaves its tick unrecorded, reported once a run. An export read keeps the chunks fully received and gives TIMEOUT for the others; a scrub read leaves cursor and memory. While TESTING it sets the
group's mark and the test goes on with the next slot, or completes. An abandoned access faults nothing, captures nothing and changes no word outside the page it wrote. A read
counts, captures and lists the errors of the words it received before the timeout, which is taken after them (R170 to R172). (`words` is how many words were transferred: log entry
29; a scrub read that times out writes nothing back: log entry 47.
That a fault mark still stands after the test completed: the model's reading, log entry 40; the lanes read wrong are an operand: log entry 13; a test word that was corrected and still differs from the pattern
is both: log entry 28. That the end of a read sees the pin of a stalled job while the stall is due is the model's choice, log entry 4.) -/
def Obligations.TimeoutFaultsTheGroup : Prop :=
  (∀ (s : State) (words : Nat) (wrong : WrongLanes) (w : PageWrite) (p page : Nat) (g : Group),
    s.ac.access = some ⟨.record w p, g, page, false⟩ → s.ac.state = .recording → w.retry = false → words < 1024 →
    ∃ t, exec (.accessTimeout words wrong) s = .next t ∧ t.ac.access = none ∧ (t.ac.groups.get g).state = .faulted ∧
      (∀ h, h ≠ g → (t.ac.groups.get h).state = (s.ac.groups.get h).state) ∧
      (∀ h, (t.ac.groups.get h).corrected = min (s.ac.groups.get h).corrected 65535 ∨
        (t.ac.groups.get h).corrected = (s.ac.groups.get h).corrected) ∧
      t.ru.holds = s.ru.holds ∧ t.ru.quota = t.ru.healthyPages / 2 ∧
      t.ru.healthyPages = 524288 * (s.ac.bank.filter (fun h => decide (h ≠ g) && decide ((s.ac.groups.get h).state = .healthy))).length ∧
      t.rc = { s.rc with writes := { w with retry := true } :: s.rc.writes } ∧ t.li = s.li.raiseAll .archive ∧
      (s.ac.capture = none → t.ac.capture = some ⟨g, page, words, 0, .timeout, .recordWrite⟩) ∧
      (∀ c, s.ac.capture = some c → t.ac.capture = some c) ∧ t.ac.state = .recording ∧ t.iu = s.iu ∧ t.xu = s.xu ∧
      t.fiu = s.fiu ∧ t.lm = s.lm ∧ t.cc = s.cc ∧ t.su = s.su ∧ t.sg = s.sg ∧
      (∀ a, a < ((g.val * 524288) + page) * 1024 ∨ ((g.val * 524288) + page) * 1024 + words ≤ a →
        tableGet t.ac.dram a = tableGet s.ac.dram a)) ∧
  (∀ (s : State) (words : Nat) (wrong : WrongLanes) (x : Access), s.ac.access = some x → x.abandoned = true →
    ∃ t, exec (.accessTimeout words wrong) s = .next t ∧
      t = { s with ac := { s.ac with access := none, dram := t.ac.dram } }) ∧
  (∀ (s : State) (words : Nat) (wrong : WrongLanes) (x : Access) (t : State), s.ac.access = some x → x.abandoned = true →
    exec (.accessTimeout words wrong) s = .next t →
    (∀ a, a < ((x.group.val * 524288) + x.page) * 1024 ∨ ((x.group.val * 524288) + x.page) * 1024 + 1024 ≤ a →
      tableGet t.ac.dram a = tableGet s.ac.dram a) ∧
    ((∀ w p, x.kind ≠ .record w p) → x.kind ≠ .testWrite → t.ac.dram = s.ac.dram)) ∧
  (∀ (s : State) (words : Nat) (wrong : WrongLanes) (w : PageWrite) (p page : Nat) (g : Group),
    s.ac.access = some ⟨.record w p, g, page, false⟩ → s.ac.state = .recording → w.retry = true → words < 1024 →
    ∃ t, exec (.accessTimeout words wrong) s = .next t ∧ t.ac.access = none ∧ (t.ac.groups.get g).state = .faulted ∧
      t.rc = { s.rc with stall := true } ∧
      t.iu = { s.iu with reports := s.iu.reports ++
        (if s.rc.stall = true then [] else [⟨.recordStall, none, none, none, none, w.tick, w.tick, w.tick, none, none, false⟩]) } ∧
      t.ru.holds = s.ru.holds ∧ t.ru.quota = t.ru.healthyPages / 2 ∧ t.li = s.li.raiseAll .archive ∧ t.xu = s.xu ∧
      (s.ac.capture = none → t.ac.capture = some ⟨g, page, words, 0, .timeout, .recordWrite⟩) ∧
      (∀ a, a < ((g.val * 524288) + page) * 1024 ∨ ((g.val * 524288) + page) * 1024 + words ≤ a →
        tableGet t.ac.dram a = tableGet s.ac.dram a)) ∧
  (∀ (s : State) (words : Nat) (wrong : WrongLanes) (r : ReadRequest) (page : Nat) (g : Group) (j : Job) (rest : List Job),
    s.ac.access = some ⟨.exportRead r, g, page, false⟩ → s.ac.state = .recording → r.chunks.Nodup →
    words < 128 * r.chunks.length → s.xu.jobs = j :: rest →
    ∃ t, exec (.accessTimeout words wrong) s = .next t ∧ t.ac.access = none ∧ (t.ac.groups.get g).state = .faulted ∧
      t.ac.dram = s.ac.dram ∧
      (j.abort = false → t.xu.jobs = { j with phase := .sending, feed := r.chunks.head? } :: rest ∧
        t.xu.buffer.map Prod.fst = r.chunks ∧
        ∀ (k : Nat) (f : Feed), r.chunks[k]? = some f → ∃ b, t.xu.buffer[k]? = some (f, b) ∧
          (words < 128 * (k + 1) → b = .chunk .timeout []) ∧
          (128 * (k + 1) ≤ words → ∃ o, o ≠ .timeout ∧
            b = .chunk o ((List.range 128).map (fun i => (s.ac.readWord g page (128 * f.val + i) wrong).data)) ∧
            (o = .damaged ↔ ∃ i, i < 128 ∧ (s.ac.readWord g page (128 * f.val + i) wrong).outcome = .uncorrectable) ∧
            (o = .clean ↔ ∀ i, i < 128 → (s.ac.readWord g page (128 * f.val + i) wrong).outcome = .clean))) ∧
      (j.abort = true →
        t.xu.endings = s.xu.endings.set j.link (some ⟨j.number, .aborted, j.sent, j.damaged, j.unavailable, j.absent⟩)) ∧
      (∀ f, r.chunks[words / 128]? = some f → s.ac.capture = none →
        (∀ i h, i < words → r.chunks[i / 128]? = some h → (s.ac.readWord g page (128 * h.val + i % 128) wrong).outcome = .clean) →
        t.ac.capture = some ⟨g, page, 128 * f.val + words % 128, 0, .timeout, .exportRead⟩)) ∧
  (∀ (s : State) (words : Nat) (wrong : WrongLanes) (r : ReadRequest) (page : Nat) (g : Group),
    s.ac.access = some ⟨.scrub r, g, page, false⟩ → s.ac.state = .recording → words < 1024 →
    ∃ t, exec (.accessTimeout words wrong) s = .next t ∧ t.ac.access = none ∧ (t.ac.groups.get g).state = .faulted ∧
      t.ac.dram = s.ac.dram ∧ t.ac.scrub = s.ac.scrub ∧ t.ac.scrubRequest = s.ac.scrubRequest ∧ t.ac.capture ≠ none ∧
      t.rc = s.rc ∧ t.xu = s.xu ∧ t.ru.holds = s.ru.holds ∧ t.li = s.li.raiseAll .archive) ∧
  (∀ (s : State) (words : Nat) (wrong : WrongLanes) (k : AccessKind) (page : Nat) (g : Group) (x : TestPosition),
    s.ac.access = some ⟨k, g, page, false⟩ → k = .testWrite ∨ k = .testRead → s.ac.state = .testing → s.ac.test = some x →
    ∃ t, exec (.accessTimeout words wrong) s = .next t ∧ t.ac.access = none ∧ (t.ac.groups.get g).faultMark = true ∧
      (∀ h, h ≠ g → (t.ac.groups.get h).faultMark = (s.ac.groups.get h).faultMark) ∧ t.ac.capture ≠ none ∧
      t.iu = s.iu ∧ t.rc = s.rc ∧ t.xu = s.xu ∧
      (x.slot + 1 < s.ac.bank.length → t.ac.test = some ⟨x.slot + 1, 0, false⟩ ∧ t.ac.testRequest = true ∧
        t.ac.state = .testing ∧ (∀ h, (t.ac.groups.get h).state = (s.ac.groups.get h).state) ∧ t.ru = s.ru ∧ t.li = s.li) ∧
      (s.ac.bank.length ≤ x.slot + 1 → t.ac.test = none ∧ t.ac.testRequest = false ∧ t.li = s.li.raiseAll .archive ∧
        (∀ h ∈ s.ac.bank, (t.ac.groups.get h).state = (if (t.ac.groups.get h).faultMark then .faulted else .healthy)) ∧
        (t.ac.state = .tested ↔ ∃ h ∈ s.ac.bank, (t.ac.groups.get h).state = .healthy) ∧
        (t.ac.state ≠ .tested → t.ac.state = .mapped)) ∧
      (∀ a, a < ((g.val * 524288) + page) * 1024 ∨ ((g.val * 524288) + page) * 1024 + 1024 ≤ a →
        tableGet t.ac.dram a = tableGet s.ac.dram a)) ∧
  (∀ (s : State) (words : Nat) (wrong : WrongLanes) (k : AccessKind) (page : Nat) (g : Group) (who : Requester) (all got : List Nat)
      (word : Nat → WordRead) (bad : Nat → Bool),
    s.ac.access = some ⟨k, g, page, false⟩ → words < all.length → got = all.take words →
    ((∃ r, k = .exportRead r ∧ who = .exportRead ∧
        all = (r.chunks.map (fun f => (List.range 128).map (fun i => 128 * f.val + i))).flatten) ∨
      (∃ r, k = .scrub r ∧ who = .scrubRead ∧ all = List.range 1024) ∨ (k = .testRead ∧ who = .test ∧ all = List.range 1024)) →
    (∀ i, word i = s.ac.readWord g page i wrong) →
    (∀ i, bad i = true ↔ (word i).outcome = .uncorrectable ∨
      k = .testRead ∧ (word i).data ≠ (BitVec.ofNat 32 (1024 * page + i)) ++ ~~~(BitVec.ofNat 32 (1024 * page + i))) →
    ∃ t, exec (.accessTimeout words wrong) s = .next t ∧
      (∀ h, (t.ac.groups.get h).corrected = (if h = g then
          min ((s.ac.groups.get g).corrected + (got.filter (fun i => decide ((word i).outcome = .corrected))).length) 65535
        else (s.ac.groups.get h).corrected) ∧
        (t.ac.groups.get h).uncorrectable = (if h = g then
          min ((s.ac.groups.get g).uncorrectable + (got.filter bad).length) 65535
        else (s.ac.groups.get h).uncorrectable)) ∧
      (∀ c, s.ac.capture = some c → t.ac.capture = some c) ∧
      (∀ pre i post, s.ac.capture = none → got = pre ++ i :: post →
        (∀ q ∈ pre, bad q = false ∧ ((word q).outcome = .corrected → (s.ac.spareOf g page).quiet = true)) →
        (bad i = true → t.ac.capture = some ⟨g, page, i, (word i).syndrome, .uncorrectable, who⟩) ∧
        (bad i = false → (word i).outcome = .corrected → (s.ac.spareOf g page).quiet = false →
          t.ac.capture = some ⟨g, page, i, (word i).syndrome, .corrected, who⟩)) ∧
      (∀ o, s.ac.capture = none → all[words]? = some o →
        (∀ q ∈ got, bad q = false ∧ ((word q).outcome = .corrected → (s.ac.spareOf g page).quiet = true)) →
        t.ac.capture = some ⟨g, page, o, 0, .timeout, who⟩) ∧
      (k = .testRead ∨ (∀ q ∈ got, bad q = false) → t.ac.damaged = s.ac.damaged ∧ t.iu = s.iu) ∧
      (∀ (pre post : List Nat) (i u : Nat) (r : ReadRequest) (f : Feed), k = .exportRead r ∨ k = .scrub r → got = pre ++ i :: post →
        bad i = true → (∀ q ∈ pre, bad q = false) → storedTick s.rc.spans r.page = some u → f.val = i / 128 →
        ((∃ e ∈ s.ac.damaged, e.1 = r.page) → t.ac.damaged = s.ac.damaged ∧ t.iu = s.iu) ∧
        ((∀ e ∈ s.ac.damaged, e.1 ≠ r.page) →
          t.ac.damaged = (if s.ac.damaged.length < 64 then s.ac.damaged ++ [(r.page, u)] else s.ac.damaged) ∧
          t.iu = { s.iu with reports := s.iu.reports ++ (if ∃ e ∈ s.ru.holds, e.2.first ≤ u ∧ u ≤ e.2.last then
            [⟨.evidenceDamaged, some f, none, none, none, s.fiu.openTick - 1, u, u, none, none, false⟩] else []) })))

/-- R160, R161, R169 to R174: a scrub read and a test access are granted when the bus is free and nothing goes before them, or dropped; a scrub read that finds every word clean changes nothing; a completed test write asks for
the read of its page. At a close the scrubber goes through the holds from its cursor on and takes the first tick present and not unavailable, or nothing. A scrub read writes corrected words back, counts, captures the first
error, and lists a damaged page, reporting it when its tick is held. A test read goes on page by page, passes over the group at the first bad word, and completes the test after the last; its
read is counted and captured too. (The order of the holds at a close: log entry 25; a word that was corrected and still differs from the pattern is both: log entry 28. With no lapse and no stall due, log entry 4.
That fault marks still stand after the test completed: the model's reading, log entry 40; the lanes read wrong are an operand: log entry 13.
That the end of a read sees the pin of a stalled job while the stall is due is the model's choice, log entry 4.) -/
def Obligations.ScrubAndTestAccessesRun : Prop :=
  (∀ (s : State) (r : ReadRequest) (g : Group), s.ac.access = none → s.rc.writes = [] → s.ac.exportRequest = none →
    s.ac.scrubRequest = some r → s.ac.bank[r.page / 524288]? = some g →
    (pageOf s.rc.spans r.tick = some r.page → (s.ac.groups.get g).state ≠ .faulted →
      exec .scrubReadGrant s = .next { s with ac := { s.ac with
        scrubRequest := none, access := some ⟨.scrub r, g, r.page % 524288, false⟩ } }) ∧
    (pageOf s.rc.spans r.tick ≠ some r.page ∨ (s.ac.groups.get g).state = .faulted →
      exec .scrubReadGrant s = .next { s with ac := { s.ac with scrubRequest := none } })) ∧
  (∀ (s : State) (wrong : WrongLanes) (r : ReadRequest) (page : Nat) (g : Group), s.ac.access = some ⟨.scrub r, g, page, false⟩ →
    (∀ i, i < 1024 → (s.ac.readWord g page i wrong).outcome = .clean) → (∀ h, (s.ac.groups.get h).corrected ≤ 65535) →
    (∀ h, (s.ac.groups.get h).uncorrectable ≤ 65535) →
    exec (.scrubReadCompletion wrong) s = .next { s with ac := { s.ac with access := none } }) ∧
  (∀ (s : State) (x : TestPosition) (g : Group), s.ac.access = none → s.ac.testRequest = true → s.ac.test = some x →
    s.ac.bank[x.slot]? = some g →
    exec .testAccessGrant s = .next { s with ac := { s.ac with
      testRequest := false
      access := some ⟨if x.reading then .testRead else .testWrite, g, x.page, false⟩ } }) ∧
  (∀ (s : State) (wrong : WrongLanes) (x : TestPosition) (page : Nat) (g : Group),
    s.ac.access = some ⟨.testWrite, g, page, false⟩ → s.ac.test = some x →
    ∃ t, exec (.testAccessCompletion wrong) s = .next t ∧
      t = { s with ac := { s.ac with
        access := none, test := some { x with reading := true }, testRequest := true, dram := t.ac.dram } } ∧
      (∀ i, i < 1024 → tableGet t.ac.dram (((g.val * 524288) + page) * 1024 + i) =
        some (lanesOf (s.ac.spareOf g page).lane (testWord page i))) ∧
      (∀ a, a < ((g.val * 524288) + page) * 1024 ∨ ((g.val * 524288) + page) * 1024 + 1024 ≤ a →
        tableGet t.ac.dram a = tableGet s.ac.dram a)) ∧
  (∀ (xbsy : Bool) (s : State) (readable : Nat → Nat → Prop) (order : List (Nat × Hold × Nat)),
    s.fiu.periods = 4800 → s.su.lapseDue = false → s.xu.stallDue = false →
    (∀ u p, readable u p ↔ pageOf s.rc.spans u = some p ∧ ∀ g, s.ac.bank[p / 524288]? = some g → (s.ac.groups.get g).state ≠ .faulted) →
    (s.ac.scrub = none → order = s.ru.holds.map (fun e => (e.1, e.2, e.2.first))) →
    (∀ c h, s.ac.scrub = some c → tableGet s.ru.holds c.index = some h → h.number = c.number →
      order = (c.index, h, c.next) :: ((s.ru.holds.filter (fun e => decide (c.index < e.1))
        ++ s.ru.holds.filter (fun e => decide (e.1 < c.index))).map (fun e => (e.1, e.2, e.2.first)))) →
    (∀ c, s.ac.scrub = some c → (∀ h, tableGet s.ru.holds c.index = some h → h.number ≠ c.number) →
      order = (s.ru.holds.filter (fun e => decide (c.index < e.1))
        ++ s.ru.holds.filter (fun e => decide (e.1 ≤ c.index))).map (fun e => (e.1, e.2, e.2.first))) →
    ∃ t, exec (.tickClose xbsy) s = .next t ∧
      (s.ac.state ≠ .recording ∨ s.ac.scrubRequest ≠ none ∨ (∃ x r, s.ac.access = some x ∧ x.kind = .scrub r) → t.ac = s.ac) ∧
      (s.ac.state = .recording → s.ac.scrubRequest = none → (∀ x r, s.ac.access = some x → x.kind ≠ .scrub r) →
        ((∀ y ∈ order, ∀ u p, y.2.2 ≤ u → u ≤ y.2.1.last → ¬ readable u p) → t.ac = s.ac) ∧
        (∀ pre y post u p, order = pre ++ y :: post →
          (∀ z ∈ pre, ∀ v q, z.2.2 ≤ v → v ≤ z.2.1.last → ¬ readable v q) → y.2.2 ≤ u → u ≤ y.2.1.last → readable u p →
          (∀ v q, y.2.2 ≤ v → v < u → ¬ readable v q) →
          t.ac = { s.ac with
            scrub := some ⟨y.1, y.2.1.number, u + 1⟩, scrubRequest := some ⟨u, p, [0, 1, 2, 3, 4, 5, 6, 7]⟩ }))) ∧
  (∀ (s : State) (wrong : WrongLanes) (r : ReadRequest) (page : Nat) (g : Group) (word : Nat → WordRead),
    s.ac.access = some ⟨.scrub r, g, page, false⟩ → (∀ i, word i = s.ac.readWord g page i wrong) →
    ∃ t, exec (.scrubReadCompletion wrong) s = .next t ∧ t.ac.access = none ∧
      (∀ i, i < 1024 → tableGet t.ac.dram (((g.val * 524288) + page) * 1024 + i) =
        if (word i).outcome = .corrected then some (lanesOf (s.ac.spareOf g page).lane (word i).data)
        else tableGet s.ac.dram (((g.val * 524288) + page) * 1024 + i)) ∧
      (∀ a, a < ((g.val * 524288) + page) * 1024 ∨ ((g.val * 524288) + page) * 1024 + 1024 ≤ a →
        tableGet t.ac.dram a = tableGet s.ac.dram a) ∧
      t.ac.groups.get g = { s.ac.groups.get g with
        corrected := min ((s.ac.groups.get g).corrected
          + ((List.range 1024).filter (fun i => decide ((word i).outcome = .corrected))).length) 65535
        uncorrectable := min ((s.ac.groups.get g).uncorrectable
          + ((List.range 1024).filter (fun i => decide ((word i).outcome = .uncorrectable))).length) 65535 } ∧
      (∀ h, h ≠ g → t.ac.groups.get h = s.ac.groups.get h) ∧
      (∀ c, s.ac.capture = some c → t.ac.capture = some c) ∧
      (∀ i, s.ac.capture = none → i < 1024 →
        (∀ k, k < i → (word k).outcome = .clean ∨ (word k).outcome = .corrected ∧ (s.ac.spareOf g page).quiet = true) →
        ((word i).outcome = .uncorrectable → t.ac.capture = some ⟨g, page, i, (word i).syndrome, .uncorrectable, .scrubRead⟩) ∧
        ((word i).outcome = .corrected → (s.ac.spareOf g page).quiet = false →
          t.ac.capture = some ⟨g, page, i, (word i).syndrome, .corrected, .scrubRead⟩)) ∧
      ((∀ i, i < 1024 → (word i).outcome ≠ .uncorrectable) → t.ac.damaged = s.ac.damaged ∧ t.iu = s.iu) ∧
      (∀ (i u : Nat) (f : Feed), i < 1024 → (word i).outcome = .uncorrectable → (∀ k, k < i → (word k).outcome ≠ .uncorrectable) →
        storedTick s.rc.spans r.page = some u → f.val = i / 128 →
        ((∃ e ∈ s.ac.damaged, e.1 = r.page) → t.ac.damaged = s.ac.damaged ∧ t.iu = s.iu) ∧
        ((∀ e ∈ s.ac.damaged, e.1 ≠ r.page) →
          t.ac.damaged = (if s.ac.damaged.length < 64 then s.ac.damaged ++ [(r.page, u)] else s.ac.damaged) ∧
          ((∃ e ∈ s.ru.holds, e.2.first ≤ u ∧ u ≤ e.2.last) → t.iu = { s.iu with reports := s.iu.reports ++
            [⟨.evidenceDamaged, some f, none, none, none, s.fiu.openTick - 1, u, u, none, none, false⟩] }) ∧
          ((∀ e ∈ s.ru.holds, ¬ (e.2.first ≤ u ∧ u ≤ e.2.last)) → t.iu = s.iu))) ∧
      t.ac.scrub = s.ac.scrub ∧ t.ru = s.ru ∧ t.rc = s.rc ∧ t.xu = s.xu ∧ t.li = s.li) ∧
  (∀ (s : State) (wrong : WrongLanes) (page : Nat) (g : Group) (x : TestPosition) (bad : Nat → Prop),
    s.ac.access = some ⟨.testRead, g, page, false⟩ → s.ac.test = some x →
    (∀ i, bad i ↔ i < 1024 ∧ ((s.ac.readWord g page i wrong).outcome = .uncorrectable ∨
      (s.ac.readWord g page i wrong).data ≠ (BitVec.ofNat 32 (1024 * page + i)) ++ ~~~(BitVec.ofNat 32 (1024 * page + i)))) →
    ∃ t, exec (.testAccessCompletion wrong) s = .next t ∧ t.ac.access = none ∧ t.ac.dram = s.ac.dram ∧
      ((t.ac.groups.get g).faultMark = true ↔ (s.ac.groups.get g).faultMark = true ∨ ∃ i, bad i) ∧
      (∀ h, h ≠ g → (t.ac.groups.get h).faultMark = (s.ac.groups.get h).faultMark ∧
        (t.ac.groups.get h).corrected = (s.ac.groups.get h).corrected ∧
        (t.ac.groups.get h).uncorrectable = (s.ac.groups.get h).uncorrectable) ∧
      (t.ac.groups.get g).corrected = min ((s.ac.groups.get g).corrected
        + ((List.range 1024).filter (fun i => decide ((s.ac.readWord g page i wrong).outcome = .corrected))).length) 65535 ∧
      (t.ac.groups.get g).uncorrectable = min ((s.ac.groups.get g).uncorrectable
        + ((List.range 1024).filter (fun i => decide ((s.ac.readWord g page i wrong).outcome = .uncorrectable ∨
          (s.ac.readWord g page i wrong).data ≠ (BitVec.ofNat 32 (1024 * page + i)) ++ ~~~(BitVec.ofNat 32 (1024 * page + i))))).length)
        65535 ∧
      (∀ c, s.ac.capture = some c → t.ac.capture = some c) ∧
      (∀ i, s.ac.capture = none → i < 1024 →
        (∀ k, k < i → ¬ bad k ∧ ((s.ac.readWord g page k wrong).outcome = .corrected → (s.ac.spareOf g page).quiet = true)) →
        (bad i → t.ac.capture = some ⟨g, page, i, (s.ac.readWord g page i wrong).syndrome, .uncorrectable, .test⟩) ∧
        (¬ bad i → (s.ac.readWord g page i wrong).outcome = .corrected → (s.ac.spareOf g page).quiet = false →
          t.ac.capture = some ⟨g, page, i, (s.ac.readWord g page i wrong).syndrome, .corrected, .test⟩)) ∧
      t.iu = s.iu ∧ t.rc = s.rc ∧ t.xu = s.xu ∧
      ((∀ i, ¬ bad i) → x.page + 1 < 524288 → t.ac.test = some ⟨x.slot, x.page + 1, false⟩ ∧ t.ac.testRequest = true ∧
        t.ac.state = s.ac.state ∧ t.ru = s.ru ∧ t.li = s.li) ∧
      ((∃ i, bad i) ∨ 524288 ≤ x.page + 1 →
        (x.slot + 1 < s.ac.bank.length → t.ac.test = some ⟨x.slot + 1, 0, false⟩ ∧ t.ac.testRequest = true ∧
          t.ac.state = s.ac.state ∧ t.ru = s.ru ∧ t.li = s.li) ∧
        (s.ac.bank.length ≤ x.slot + 1 → t.ac.test = none ∧ t.ac.testRequest = false ∧ t.li = s.li.raiseAll .archive ∧
          (∀ h ∈ s.ac.bank, (t.ac.groups.get h).state = (if (t.ac.groups.get h).faultMark then .faulted else .healthy)) ∧
          (t.ac.state = .tested ↔ ∃ h ∈ s.ac.bank, (t.ac.groups.get h).state = .healthy) ∧
          (t.ac.state ≠ .tested → t.ac.state = .mapped) ∧ t.ru.quota = t.ru.healthyPages / 2 ∧
          t.ru.healthyPages = 524288 * (s.ac.bank.filter (fun h => decide ((t.ac.groups.get h).state = .healthy))).length)))

/-- R166, R167, R168: every word reads back clean; a single wrong lane of the codeword is corrected to the data written, whatever the substituted lane; two wrong lanes are never delivered as clean or corrected.
Lane 72 is disregarded where no lane is substituted, and otherwise stands for the substituted lane, which is disregarded. -/
def Obligations.SingleErrorsAreCorrected : Prop :=
  ∀ (d : BitVec 64) (spare : Option Nat), (∀ k, spare = some k → k < 72) →
    (readLanes spare (lanesOf spare d)).outcome = .clean ∧ (readLanes spare (lanesOf spare d)).data = d ∧
    (∀ k, spare = some k → readLanes spare (lanesOf spare d ^^^ BitVec.ofNat 73 (2 ^ k)) = readLanes spare (lanesOf spare d)) ∧
    (∀ i, i < 72 → spare ≠ some i →
      (readLanes spare (lanesOf spare d ^^^ BitVec.ofNat 73 (2 ^ i))).outcome = .corrected ∧
      (readLanes spare (lanesOf spare d ^^^ BitVec.ofNat 73 (2 ^ i))).data = d) ∧
    (∀ i j, i < j → j < 72 → spare ≠ some i → spare ≠ some j →
      (readLanes spare (lanesOf spare d ^^^ BitVec.ofNat 73 (2 ^ i) ^^^ BitVec.ofNat 73 (2 ^ j))).outcome = .uncorrectable) ∧
    (spare = none → ∀ lanes : BitVec 73, readLanes spare (lanes ^^^ BitVec.ofNat 73 (2 ^ 72)) = readLanes spare lanes) ∧
    (∀ k, spare = some k →
      (readLanes spare (lanesOf spare d ^^^ BitVec.ofNat 73 (2 ^ 72))).outcome = .corrected ∧
      (readLanes spare (lanesOf spare d ^^^ BitVec.ofNat 73 (2 ^ 72))).data = d ∧
      ∀ i, i < 72 → i ≠ k →
        (readLanes spare (lanesOf spare d ^^^ BitVec.ofNat 73 (2 ^ i) ^^^ BitVec.ofNat 73 (2 ^ 72))).outcome = .uncorrectable)

/-- R123 and the model's canonical form of the memory: the quota is half the pages of the HEALTHY mapped groups, and the archive memory keeps its form, at every step from every state in which that is so. -/
def Obligations.ArchiveBookkeepingIsKept : Prop :=
  ∀ s t : State, archiveBookkeeping s → step s = .next t → archiveBookkeeping t

/-- R15, R38, R58, R78, R101, R120, R135, R155, R177, R189, R196: MEASURE_RESTART restarts measurement and schedule and leaves incidents, holds, archive and exports as they are. (With no lapse due, log entry 4.) -/
def Obligations.MeasureRestartKeepsTheEvidence : Prop :=
  ∀ (l : Link) (s : State), s.mayAsk l 42 → s.su.lapseDue = false → ∃ t, exec (.measureRestart l (.fits ())) s = .next t ∧
    t.fiu = { s.fiu with
      history := t.fiu.history, filters := t.fiu.filters, frontier := none, settledTo := t.fiu.settledTo, baseTick := s.fiu.openTick + 1 } ∧
    (∀ f, t.fiu.history.get f = [] ∧ t.fiu.filters.get f = zeroFilters (s.fiu.settings.get f).layout ∧
      t.lm.programme.get f = ⟨none, [], 0, 0, -999, none⟩ ∧ t.lm.item.get f = ⟨none, [], 0, 0, -999, none⟩ ∧
      t.cc.feeds.get f = ⟨.clear, 0, false, none, false, [], 0, none, false, false, 0, none, false, none⟩ ∧
      t.su.lists.get f = [] ∧ t.sg.inbox.get f = [] ∧ t.sg.noticeLm.get f = none ∧ t.sg.noticeCc.get f = none) ∧
    t.lm.energies = s.lm.energies ∧
    (t.su.anchor = none ∧ t.su.owner = none ∧ t.su.recent = [] ∧ t.su.handed = none ∧ t.su.limit = s.su.limit) ∧
    (t.sg.table = [] ∧ t.sg.limits = s.sg.limits ∧ t.sg.closeSeq = s.sg.closeSeq) ∧
    t.iu = s.iu ∧ t.ru = s.ru ∧ t.rc = s.rc ∧ t.ac = s.ac ∧ t.xu = s.xu ∧
    t.li = (if s.su.owner.isSome then (s.li.passed l 42 ⟨.ok, []⟩).raiseAll .schedule else s.li.passed l 42 ⟨.ok, []⟩)

/-! ## Evidence export -/

/-- R178 to R181, R185, R187: EXPORT_START's refusals in their order, the queue's FULL, QUOTA and the Hold Table's FULL among them; a job accepted behind another, with its pin, or into an empty queue, where it is looked up at
once; EXPORT_ABORT of a job that is not there, that is queued, that is reading, before or after its read was granted, and that is sending. (The place in the queue as one byte, and the byte that names which table was
full: log entry 20. That the job stands in READING or SENDING after the step in which R179 has it enter LOOKUP is the model's choice, log entry 34. With no stall due, log entry 4.
Job and hold numbers do not wrap: the model's reading, log entry 10.) -/
def Obligations.ExportJobsAreQueuedAndAborted : Prop :=
  (∀ (l : Link) (a : ExportStartArgs) (s : State), s.mayAsk l 39 → s.xu.stallDue = false →
    (a.mask = 0 ∨ a.last.toNat < a.first.toNat →
      exec (.exportStart l (.fits a)) s = .next { s with li := s.li.passed l 39 ⟨.badArgument, []⟩ }) ∧
    (a.mask ≠ 0 → a.first.toNat ≤ a.last.toNat →
      (s.ac.state ≠ .recording →
        exec (.exportStart l (.fits a)) s = .next { s with li := s.li.passed l 39 ⟨.wrongState, []⟩ }) ∧
      (s.ac.state = .recording → (∀ u, a.first.toNat ≤ u → u ≤ a.last.toNat → pageOf s.rc.spans u = none) →
        (∀ x ∈ s.rc.spans, 0 < x.length) →
        exec (.exportStart l (.fits a)) s = .next { s with li := s.li.passed l 39 ⟨.notFound, []⟩ }) ∧
      (∀ u v, s.ac.state = .recording → firstPresent s.rc.spans a.first.toNat a.last.toNat = some u →
        lastPresent s.rc.spans a.first.toNat a.last.toNat = some v → s.retentionFloor ≤ u → u ≤ v → v < s.fiu.openTick →
        (4 ≤ s.xu.jobs.length → exec (.exportStart l (.fits a)) s = .next { s with li := s.li.passed l 39 ⟨.full, [.byte 0]⟩ }) ∧
        (s.xu.jobs.length < 4 → s.ru.quota < (s.ru.holds.map (fun e => e.2.last - e.2.first + 1)).sum + (v - u + 1) →
          exec (.exportStart l (.fits a)) s = .next { s with li := s.li.passed l 39 ⟨.quota, []⟩ }) ∧
        (s.xu.jobs.length < 4 → (s.ru.holds.map (fun e => e.2.last - e.2.first + 1)).sum + (v - u + 1) ≤ s.ru.quota →
          (∀ j, j < 64 → tableGet s.ru.holds j ≠ none) →
          exec (.exportStart l (.fits a)) s = .next { s with li := s.li.passed l 39 ⟨.full, [.byte 1]⟩ }) ∧
        (∀ i p, s.xu.jobs = [] → (s.ru.holds.map (fun e => e.2.last - e.2.first + 1)).sum + (v - u + 1) ≤ s.ru.quota → i < 64 →
          tableGet s.ru.holds i = none → (∀ j, j < i → tableGet s.ru.holds j ≠ none) → pageOf s.rc.spans u = some p →
          ∃ t job, exec (.exportStart l (.fits a)) s = .next t ∧
            t.ru = { s.ru with holds := tablePut s.ru.holds i ⟨s.ru.counter, .job s.xu.counter, u, v, 0⟩, counter := s.ru.counter + 1 } ∧
            t.li = s.li.passed l 39
              ⟨if u = a.first.toNat ∧ v = a.last.toNat then .ok else .clamped,
               [.long s.xu.counter, .tick u, .tick v, .byte i, .byte 0, .long ((v - u + 1) * (maskFeeds a.mask).length)]⟩ ∧
            t.xu.jobs = [job] ∧ t.xu.counter = s.xu.counter + 1 ∧ t.xu.stallTimer = 0 ∧ t.xu.endings = s.xu.endings ∧
            job = ⟨s.xu.counter, l, maskFeeds a.mask, u, v, i, u, (maskFeeds a.mask).head?, job.phase, false, 0, 0, 0, 0⟩ ∧
            ((∀ g, s.ac.bank[p / 524288]? = some g → (s.ac.groups.get g).state ≠ .faulted) → job.phase = .reading ∧
              t.ac = { s.ac with exportRequest := some ⟨u, p, maskFeeds a.mask⟩ }) ∧
            (∀ g, s.ac.bank[p / 524288]? = some g → (s.ac.groups.get g).state = .faulted → job.phase = .sending ∧ t.ac = s.ac ∧
              t.xu.buffer = (maskFeeds a.mask).map (fun f => (f, .unavailable))))) ∧
      (∀ head tail u v i, s.ac.state = .recording → s.xu.jobs = head :: tail → s.xu.jobs.length < 4 →
        firstPresent s.rc.spans a.first.toNat a.last.toNat = some u → lastPresent s.rc.spans a.first.toNat a.last.toNat = some v →
        s.retentionFloor ≤ u → u ≤ v → v < s.fiu.openTick →
        (s.ru.holds.map (fun e => e.2.last - e.2.first + 1)).sum + (v - u + 1) ≤ s.ru.quota → i < 64 →
        tableGet s.ru.holds i = none → (∀ j, j < i → tableGet s.ru.holds j ≠ none) →
        ∃ job, exec (.exportStart l (.fits a)) s = .next { s with
            ru := { s.ru with holds := tablePut s.ru.holds i ⟨s.ru.counter, .job s.xu.counter, u, v, 0⟩, counter := s.ru.counter + 1 }
            xu := { s.xu with jobs := s.xu.jobs ++ [job], counter := s.xu.counter + 1 }
            li := s.li.passed l 39
              ⟨if u = a.first.toNat ∧ v = a.last.toNat then .ok else .clamped,
               [.long s.xu.counter, .tick u, .tick v, .byte i, .byte s.xu.jobs.length,
                .long ((v - u + 1) * (maskFeeds a.mask).length)]⟩ } ∧
          job.number = s.xu.counter ∧ job.link = l ∧ job.mask = maskFeeds a.mask ∧ job.first = u ∧ job.last = v ∧ job.pin = i ∧
          job.phase = .queued ∧ job.abort = false ∧ job.sent = 0))) ∧
  (∀ (l : Link) (b : BitVec 32) (s : State), s.mayAsk l 40 → s.xu.stallDue = false →
    ((∀ j ∈ s.xu.jobs, j.number ≠ b.toNat) →
      exec (.exportAbort l (.fits b)) s = .next { s with li := s.li.passed l 40 ⟨.notFound, []⟩ }) ∧
    (∀ j rest, s.xu.jobs = j :: rest → j.number = b.toNat → j.phase = .sending → j.abort = false →
      exec (.exportAbort l (.fits b)) s = .next { s with
        xu := { s.xu with jobs := { j with abort := true } :: rest }, li := s.li.passed l 40 ⟨.ok, []⟩ }) ∧
    (∀ j rest, s.xu.jobs = j :: rest → j.number = b.toNat →
      (j.abort = true ∨ j.phase = .ending → exec (.exportAbort l (.fits b)) s = .next { s with li := s.li.passed l 40 ⟨.ok, []⟩ }) ∧
      (j.abort = false → j.phase = .reading → s.ac.exportRequest = none → exec (.exportAbort l (.fits b)) s = .next { s with
        xu := { s.xu with jobs := { j with abort := true } :: rest }, li := s.li.passed l 40 ⟨.ok, []⟩ }) ∧
      (j.abort = false → j.phase = .reading → s.ac.exportRequest ≠ none → ∃ t, exec (.exportAbort l (.fits b)) s = .next t ∧
        t.xu.endings = s.xu.endings.set j.link (some ⟨j.number, .aborted, j.sent, j.damaged, j.unavailable, j.absent⟩) ∧
        (t.li.links.get j.link).flags.exports = true ∧
        (∀ h, tableGet s.ru.holds j.pin = some h → h.owner = .job j.number → t.ru.holds = tableErase s.ru.holds j.pin) ∧
        (∀ k ∈ t.xu.jobs, k.number ≠ j.number) ∧
        (rest = [] → t.xu.jobs = [] ∧ t.ac = { s.ac with exportRequest := none }))) ∧
    (∀ before k after, s.xu.jobs = before ++ k :: after → before ≠ [] → (∀ j ∈ before ++ after, j.number ≠ k.number) →
      k.number = b.toNat → ∃ t, exec (.exportAbort l (.fits b)) s = .next t ∧
        t.xu = { s.xu with
          jobs := before ++ after
          endings := s.xu.endings.set k.link (some ⟨k.number, .aborted, k.sent, k.damaged, k.unavailable, k.absent⟩) } ∧
        t.li = (s.li.passed l 40 ⟨.ok, []⟩).raiseOn k.link .exports ∧ t.ac = s.ac) ∧
    (∀ j k, s.xu.jobs = [j, k] → j.number ≠ k.number → k.number = b.toNat → ∃ t,
      exec (.exportAbort l (.fits b)) s = .next t ∧ t.xu.jobs = [j] ∧
        t.xu.endings = s.xu.endings.set k.link (some ⟨k.number, .aborted, k.sent, k.damaged, k.unavailable, k.absent⟩) ∧
        (t.li.links.get k.link).flags.exports = true ∧
        (∀ h, tableGet s.ru.holds k.pin = some h → h.owner = .job k.number → t.ru.holds = tableErase s.ru.holds k.pin)))

/-- R169 to R172, R175, R181 to R187: an export read is granted to the bus, or dropped when its group has faulted, and its tick then is unavailable; its end counts and captures errors, lists and reports a damaged page, puts
each chunk with its outcome into the tick buffer and the first record on the port; a strobe hands over one word and clears the stall timer; the last word of a record counts it and puts the next record on the port, or looks up
the next tick, or ends the job DONE, or ABORTED once marked or ENDING; a stalled job ends STALLED, or ABORTED once ENDING; the job behind one that ends is looked up at its first tick. (That the stall is a step of its own after
the close that made it due: log entry 4; the bytes of a word: log entry 12; that a job stands in READING or SENDING after the step in which R182 and R187 have it enter LOOKUP is the model's choice, log entry 34; a read of a
page that stores no tick: log entry 33; that the stall timer stands at 0 once a job has ended with none behind it: the model's choice, log entry 53.
That XD keeps the word not taken when a job ends by a stall: the model's choice, log entry 54; the lanes read wrong are an operand: log entry 13.
That it holds also while a stall is due, and then still sees the pin of the stalled job, is the model's choice, log entry 4.) -/
def Obligations.ExportReadsStrobesAndStalls : Prop :=
  (∀ (s : State) (r : ReadRequest) (g : Group), s.ac.access = none → s.rc.writes = [] → s.ac.exportRequest = some r →
    s.ac.bank[r.page / 524288]? = some g → (s.ac.groups.get g).state ≠ .faulted →
    exec .exportReadGrant s = .next { s with ac := { s.ac with
      exportRequest := none, access := some ⟨.exportRead r, g, r.page % 524288, false⟩ } }) ∧
  (∀ (s : State) (wrong : WrongLanes) (r : ReadRequest) (page : Nat) (g : Group) (j : Job) (rest : List Job) (f : Feed)
      (more : List Feed), s.ac.access = some ⟨.exportRead r, g, page, false⟩ → s.xu.jobs = j :: rest → j.abort = false →
    r.chunks = f :: more → ∃ t, exec (.exportReadCompletion wrong) s = .next t ∧ t.ac.access = none ∧
      t.xu.jobs = { j with phase := .sending, feed := some f } :: rest ∧ t.ac.dram = s.ac.dram ∧
      t.xu.buffer.map Prod.fst = r.chunks ∧ t.xu.unsent.head? = some t.xu.xd ∧
      (∀ k rest4, beBytes 4 j.number = k :: rest4 → ∃ k2 r2, rest4 = k2 :: r2 ∧ t.xu.xd = k ++ k2) ∧
      t.rc = s.rc ∧ t.ru = s.ru ∧ t.sg = s.sg ∧ t.su = s.su ∧ t.fiu = s.fiu ∧ t.lm = s.lm ∧ t.cc = s.cc ∧ t.li = s.li) ∧
  (∀ (s : State) (w v : BitVec 16) (rest : List (BitVec 16)), s.xu.unsent = w :: v :: rest → s.xu.stallTimer < 50 →
    exec .exportStrobe s = .next { s with xu := { s.xu with unsent := v :: rest, stallTimer := 0, xd := v } }) ∧
  (∀ (s : State) (w : BitVec 16) (rest : List (BitVec 16)) (j : Job) (behind : List Job), s.xu.unsent = w :: rest →
    s.xu.stallTimer = 50 → s.xu.jobs = j :: behind → j.phase = .sending ∨ j.phase = .ending →
    ∃ t, exec .exportStall s = .next t ∧ t.xu.stallTimer = 0 ∧ t.iu = s.iu ∧ t.rc = s.rc ∧
      t.xu.endings = s.xu.endings.set j.link
        (some ⟨j.number, if j.phase = .ending then .aborted else .stalled, j.sent, j.damaged, j.unavailable, j.absent⟩) ∧
      t.li = s.li.raiseOn j.link .exports ∧
      (∀ h, tableGet s.ru.holds j.pin = some h → h.owner = .job j.number → t.ru.holds = tableErase s.ru.holds j.pin) ∧
      (behind = [] → t.xu.jobs = [] ∧ t.xu.unsent = [] ∧ t.xu.buffer = [] ∧ t.xu.xd = s.xu.xd ∧ t.ac = s.ac) ∧
      (∀ k others, behind = k :: others → (∀ x ∈ behind, x.number ≠ j.number) → lookedUp s t { k with tick := k.first } others) ∧
      exec .exportStrobe s = .next s) ∧
  (∀ (s : State) (r : ReadRequest) (g : Group) (j : Job) (rest : List Job) (f : Feed) (more : List Feed), s.ac.access = none →
    s.rc.writes = [] → s.ac.exportRequest = some r → s.ac.bank[r.page / 524288]? = some g →
    (s.ac.groups.get g).state = .faulted → s.xu.jobs = j :: rest → j.mask = f :: more →
    ∃ t, exec .exportReadGrant s = .next t ∧ t.ac = { s.ac with exportRequest := none } ∧
      t.xu.jobs = { j with phase := .sending, feed := some f } :: rest ∧
      t.xu.buffer = j.mask.map (fun h => (h, .unavailable)) ∧ t.xu.unsent.length = 8 ∧ t.xu.unsent.head? = some t.xu.xd ∧
      t.rc = s.rc ∧ t.ru = s.ru ∧ t.li = s.li ∧ t.iu = s.iu) ∧
  (∀ (s : State) (w : BitVec 16) (j k : Job) (rest : List Job) (f : Feed) (b : Buffered) (more : List (Feed × Buffered)),
    s.xu.unsent = [w] → s.xu.stallTimer < 50 → s.xu.jobs = j :: rest → s.xu.buffer = (f, b) :: more →
    j.phase = .sending ∨ j.phase = .ending →
    k = { j with
      sent := j.sent + 1
      damaged := j.damaged + (match b with | .chunk .damaged _ => 1 | _ => 0)
      unavailable := j.unavailable + (match b with | .unavailable => 1 | .chunk .timeout _ => 1 | _ => 0)
      absent := j.absent + (match b with | .absent => 1 | _ => 0) } →
    ∃ t, exec .exportStrobe s = .next t ∧ t.xu.stallTimer = 0 ∧ t.iu = s.iu ∧ t.rc = s.rc ∧
      (∀ (h : Feed) (c : Buffered) (after : List (Feed × Buffered)), j.phase = .sending → j.abort = false →
        more = (h, c) :: after →
        t.xu.jobs = { k with feed := some h } :: rest ∧ t.xu.buffer = more ∧ t.xu.unsent.head? = some t.xu.xd ∧
        t.ac = s.ac ∧ t.ru = s.ru ∧ t.li = s.li ∧ t.xu.endings = s.xu.endings ∧
        ∃ payload flags : List Byte,
          (flags, payload) = (match c with
            | .absent => ([8], [])
            | .unavailable => ([5], [])
            | .chunk .timeout _ => ([5], [])
            | .chunk .damaged ws => ([3], (ws.map (fun v => beBytes 8 v.toNat)).flatten)
            | .chunk _ ws => ([1], (ws.map (fun v => beBytes 8 v.toNat)).flatten)) ∧
          (t.xu.unsent.map (fun v => [v.extractLsb' 8 8, v.extractLsb' 0 8])).flatten =
            beBytes 4 j.number ++ (beBytes 6 j.tick ++ (beBytes 1 h.val ++ (flags ++ (beBytes 2 payload.length
              ++ (beBytes 2 (k.sent % 65536) ++ payload)))))) ∧
      (j.phase = .sending → j.abort = false → more = [] → j.tick ≠ j.last →
        t.ru = s.ru ∧ t.li = s.li ∧ t.xu.endings = s.xu.endings ∧ lookedUp s t { k with tick := j.tick + 1 } rest) ∧
      (j.abort = true ∨ j.phase = .ending ∨ more = [] ∧ j.tick = j.last →
        t.xu.endings = s.xu.endings.set j.link
          (some ⟨j.number, if j.abort = true ∨ j.phase = .ending then .aborted else .done, k.sent, k.damaged, k.unavailable, k.absent⟩) ∧
        t.li = s.li.raiseOn j.link .exports ∧
        (∀ h, tableGet s.ru.holds j.pin = some h → h.owner = .job j.number → t.ru.holds = tableErase s.ru.holds j.pin) ∧
        ((∀ x ∈ rest, x.number ≠ j.number) → t.xu.jobs.map (·.number) = rest.map (·.number)) ∧
        (∀ m others, rest = m :: others → (∀ x ∈ rest, x.number ≠ j.number) → lookedUp s t { m with tick := m.first } others) ∧
        (rest = [] → t.xu.jobs = [] ∧ t.xu.unsent = [] ∧ t.xu.buffer = [] ∧ t.ac = s.ac))) ∧
  (∀ (s : State) (wrong : WrongLanes) (r : ReadRequest) (page : Nat) (g : Group) (j : Job) (rest : List Job) (word : Nat → WordRead)
      (offsets : List Nat), s.ac.access = some ⟨.exportRead r, g, page, false⟩ → s.xu.jobs = j :: rest → r.chunks.Nodup →
    (∀ i, word i = s.ac.readWord g page i wrong) →
    offsets = (r.chunks.map (fun f => (List.range 128).map (fun i => 128 * f.val + i))).flatten →
    ∃ t, exec (.exportReadCompletion wrong) s = .next t ∧ t.ac.access = none ∧ t.ac.dram = s.ac.dram ∧
      t.ac.groups.get g = { s.ac.groups.get g with
        corrected := min ((s.ac.groups.get g).corrected
          + (offsets.filter (fun i => decide ((word i).outcome = .corrected))).length) 65535
        uncorrectable := min ((s.ac.groups.get g).uncorrectable
          + (offsets.filter (fun i => decide ((word i).outcome = .uncorrectable))).length) 65535 } ∧
      (∀ h, h ≠ g → t.ac.groups.get h = s.ac.groups.get h) ∧
      (∀ c, s.ac.capture = some c → t.ac.capture = some c) ∧
      (∀ before i after, s.ac.capture = none → offsets = before ++ i :: after →
        (∀ k ∈ before, (word k).outcome = .clean ∨ (word k).outcome = .corrected ∧ (s.ac.spareOf g page).quiet = true) →
        ((word i).outcome = .uncorrectable → t.ac.capture = some ⟨g, page, i, (word i).syndrome, .uncorrectable, .exportRead⟩) ∧
        ((word i).outcome = .corrected → (s.ac.spareOf g page).quiet = false →
          t.ac.capture = some ⟨g, page, i, (word i).syndrome, .corrected, .exportRead⟩)) ∧
      ((∀ i ∈ offsets, (word i).outcome ≠ .uncorrectable) → t.ac.damaged = s.ac.damaged ∧ t.iu = s.iu) ∧
      (∀ before i after u, ∀ f : Feed, offsets = before ++ i :: after → (word i).outcome = .uncorrectable →
        (∀ k ∈ before, (word k).outcome ≠ .uncorrectable) → storedTick s.rc.spans r.page = some u → f.val = i / 128 →
        ((∃ e ∈ s.ac.damaged, e.1 = r.page) → t.ac.damaged = s.ac.damaged ∧ t.iu = s.iu) ∧
        ((∀ e ∈ s.ac.damaged, e.1 ≠ r.page) →
          t.ac.damaged = (if s.ac.damaged.length < 64 then s.ac.damaged ++ [(r.page, u)] else s.ac.damaged) ∧
          ((∃ e ∈ s.ru.holds, e.2.first ≤ u ∧ u ≤ e.2.last) → t.iu = { s.iu with reports := s.iu.reports ++
            [⟨.evidenceDamaged, some f, none, none, none, s.fiu.openTick - 1, u, u, none, none, false⟩] }) ∧
          ((∀ e ∈ s.ru.holds, ¬ (e.2.first ≤ u ∧ u ≤ e.2.last)) → t.iu = s.iu))) ∧
      (j.abort = false → ∀ (k : Nat) (f : Feed), r.chunks[k]? = some f → ∃ o, o ≠ .timeout ∧
        t.xu.buffer[k]? = some (f, .chunk o ((List.range 128).map (fun i => (word (128 * f.val + i)).data))) ∧
        (o = .damaged ↔ ∃ i, i < 128 ∧ (word (128 * f.val + i)).outcome = .uncorrectable) ∧
        (o = .clean ↔ ∀ i, i < 128 → (word (128 * f.val + i)).outcome = .clean)) ∧
      (j.abort = true →
        t.xu.endings = s.xu.endings.set j.link (some ⟨j.number, .aborted, j.sent, j.damaged, j.unavailable, j.absent⟩) ∧
        t.li = s.li.raiseOn j.link .exports))
end

