-- ==== Sys2Proof/Laws/Families.lean ====
section
/-!
SUPPORT. Reading a member of a fixed-size family after it was written, mapped or tabulated.
-/

namespace Sys2Proof

variable {α β : Type}

@[simp] theorem Oct.get_set_same (o : Oct α) (i : Fin 8) (v : α) : (o.set i v).get i = v := by
  fin_cases i <;> rfl

theorem Oct.get_set_other (o : Oct α) (i j : Fin 8) (v : α) (h : j ≠ i) : (o.set i v).get j = o.get j := by
  fin_cases i <;> fin_cases j <;> first | rfl | exact absurd rfl h

theorem Oct.get_set (o : Oct α) (i j : Fin 8) (v : α) : (o.set i v).get j = if j = i then v else o.get j := by
  split
  · subst_vars; simp
  · exact Oct.get_set_other o i j v ‹_›

theorem Oct.get_update (o : Oct α) (i j : Fin 8) (g : α → α) :
    (o.update i g).get j = if j = i then g (o.get j) else o.get j := by
  unfold Oct.update
  rw [Oct.get_set]
  split
  · subst_vars; rfl
  · rfl

@[simp] theorem Oct.get_fill (a : α) (i : Fin 8) : (Oct.fill a).get i = a := by
  fin_cases i <;> rfl

@[simp] theorem Oct.get_tab (g : Fin 8 → α) (i : Fin 8) : (Oct.tab g).get i = g i := by
  fin_cases i <;> rfl

@[simp] theorem Oct.get_map (o : Oct α) (g : α → β) (i : Fin 8) : (o.map g).get i = g (o.get i) := by
  fin_cases i <;> rfl

theorem Oct.ext_get {a b : Oct α} (h : ∀ i, a.get i = b.get i) : a = b := by
  cases a; cases b
  simp only [Oct.mk.injEq]
  exact ⟨h 0, h 1, h 2, h 3, h 4, h 5, h 6, h 7⟩

@[simp] theorem Oct.set_get_self (o : Oct α) (i : Fin 8) : o.set i (o.get i) = o := by
  apply Oct.ext_get
  intro j
  rw [Oct.get_set]
  split
  · subst_vars; rfl
  · rfl

@[simp] theorem Tri.get_set_same (o : Tri α) (i : Fin 3) (v : α) : (o.set i v).get i = v := by
  fin_cases i <;> rfl

theorem Tri.get_set_other (o : Tri α) (i j : Fin 3) (v : α) (h : j ≠ i) : (o.set i v).get j = o.get j := by
  fin_cases i <;> fin_cases j <;> first | rfl | exact absurd rfl h

theorem Tri.get_set (o : Tri α) (i j : Fin 3) (v : α) : (o.set i v).get j = if j = i then v else o.get j := by
  split
  · subst_vars; simp
  · exact Tri.get_set_other o i j v ‹_›

theorem Tri.get_update (o : Tri α) (i j : Fin 3) (g : α → α) :
    (o.update i g).get j = if j = i then g (o.get j) else o.get j := by
  unfold Tri.update
  rw [Tri.get_set]
  split
  · subst_vars; rfl
  · rfl

@[simp] theorem Tri.get_fill (a : α) (i : Fin 3) : (Tri.fill a).get i = a := by
  fin_cases i <;> rfl

@[simp] theorem Tri.get_tab (g : Fin 3 → α) (i : Fin 3) : (Tri.tab g).get i = g i := by
  fin_cases i <;> rfl

@[simp] theorem Tri.get_map (o : Tri α) (g : α → β) (i : Fin 3) : (o.map g).get i = g (o.get i) := by
  fin_cases i <;> rfl

theorem Tri.ext_get {a b : Tri α} (h : ∀ i, a.get i = b.get i) : a = b := by
  cases a; cases b
  simp only [Tri.mk.injEq]
  exact ⟨h 0, h 1, h 2⟩

@[simp] theorem Tri.set_get_self (o : Tri α) (i : Fin 3) : o.set i (o.get i) = o := by
  apply Tri.ext_get
  intro j
  rw [Tri.get_set]
  split
  · subst_vars; rfl
  · rfl

@[simp] theorem Quad.get_set_same (o : Quad α) (i : Fin 4) (v : α) : (o.set i v).get i = v := by
  fin_cases i <;> rfl

theorem Quad.get_set_other (o : Quad α) (i j : Fin 4) (v : α) (h : j ≠ i) : (o.set i v).get j = o.get j := by
  fin_cases i <;> fin_cases j <;> first | rfl | exact absurd rfl h

theorem Quad.get_set (o : Quad α) (i j : Fin 4) (v : α) : (o.set i v).get j = if j = i then v else o.get j := by
  split
  · subst_vars; simp
  · exact Quad.get_set_other o i j v ‹_›

theorem Quad.get_update (o : Quad α) (i j : Fin 4) (g : α → α) :
    (o.update i g).get j = if j = i then g (o.get j) else o.get j := by
  unfold Quad.update
  rw [Quad.get_set]
  split
  · subst_vars; rfl
  · rfl

@[simp] theorem Quad.get_fill (a : α) (i : Fin 4) : (Quad.fill a).get i = a := by
  fin_cases i <;> rfl

@[simp] theorem Quad.get_tab (g : Fin 4 → α) (i : Fin 4) : (Quad.tab g).get i = g i := by
  fin_cases i <;> rfl

@[simp] theorem Quad.get_map (o : Quad α) (g : α → β) (i : Fin 4) : (o.map g).get i = g (o.get i) := by
  fin_cases i <;> rfl

theorem Quad.ext_get {a b : Quad α} (h : ∀ i, a.get i = b.get i) : a = b := by
  cases a; cases b
  simp only [Quad.mk.injEq]
  exact ⟨h 0, h 1, h 2, h 3⟩

@[simp] theorem Quad.set_get_self (o : Quad α) (i : Fin 4) : o.set i (o.get i) = o := by
  apply Quad.ext_get
  intro j
  rw [Quad.get_set]
  split
  · subst_vars; rfl
  · rfl

end Sys2Proof
end

