-- ==== Sys2Proof/Laws/State.lean ====
section
/-!
SUPPORT. One lemma for each block under each replacement of a block: what was put in reads back, and every other block and the queue of waiting commands
read as before.
-/

namespace Sys2Proof.Machine

variable (s : State)

/-! ## `withFiu` -/

@[simp] theorem State.withFiu_pending (x : Fiu) : (s.withFiu x).pending = s.pending := rfl
@[simp] theorem State.withFiu_fiu (x : Fiu) : (s.withFiu x).fiu = x := rfl
@[simp] theorem State.withFiu_lm (x : Fiu) : (s.withFiu x).lm = s.lm := rfl
@[simp] theorem State.withFiu_cc (x : Fiu) : (s.withFiu x).cc = s.cc := rfl
@[simp] theorem State.withFiu_su (x : Fiu) : (s.withFiu x).su = s.su := rfl
@[simp] theorem State.withFiu_sg (x : Fiu) : (s.withFiu x).sg = s.sg := rfl
@[simp] theorem State.withFiu_iu (x : Fiu) : (s.withFiu x).iu = s.iu := rfl
@[simp] theorem State.withFiu_ru (x : Fiu) : (s.withFiu x).ru = s.ru := rfl
@[simp] theorem State.withFiu_rc (x : Fiu) : (s.withFiu x).rc = s.rc := rfl
@[simp] theorem State.withFiu_ac (x : Fiu) : (s.withFiu x).ac = s.ac := rfl
@[simp] theorem State.withFiu_xu (x : Fiu) : (s.withFiu x).xu = s.xu := rfl
@[simp] theorem State.withFiu_li (x : Fiu) : (s.withFiu x).li = s.li := rfl

/-! ## `withLm` -/

@[simp] theorem State.withLm_pending (x : Lm) : (s.withLm x).pending = s.pending := rfl
@[simp] theorem State.withLm_fiu (x : Lm) : (s.withLm x).fiu = s.fiu := rfl
@[simp] theorem State.withLm_lm (x : Lm) : (s.withLm x).lm = x := rfl
@[simp] theorem State.withLm_cc (x : Lm) : (s.withLm x).cc = s.cc := rfl
@[simp] theorem State.withLm_su (x : Lm) : (s.withLm x).su = s.su := rfl
@[simp] theorem State.withLm_sg (x : Lm) : (s.withLm x).sg = s.sg := rfl
@[simp] theorem State.withLm_iu (x : Lm) : (s.withLm x).iu = s.iu := rfl
@[simp] theorem State.withLm_ru (x : Lm) : (s.withLm x).ru = s.ru := rfl
@[simp] theorem State.withLm_rc (x : Lm) : (s.withLm x).rc = s.rc := rfl
@[simp] theorem State.withLm_ac (x : Lm) : (s.withLm x).ac = s.ac := rfl
@[simp] theorem State.withLm_xu (x : Lm) : (s.withLm x).xu = s.xu := rfl
@[simp] theorem State.withLm_li (x : Lm) : (s.withLm x).li = s.li := rfl

/-! ## `withCc` -/

@[simp] theorem State.withCc_pending (x : Cc) : (s.withCc x).pending = s.pending := rfl
@[simp] theorem State.withCc_fiu (x : Cc) : (s.withCc x).fiu = s.fiu := rfl
@[simp] theorem State.withCc_lm (x : Cc) : (s.withCc x).lm = s.lm := rfl
@[simp] theorem State.withCc_cc (x : Cc) : (s.withCc x).cc = x := rfl
@[simp] theorem State.withCc_su (x : Cc) : (s.withCc x).su = s.su := rfl
@[simp] theorem State.withCc_sg (x : Cc) : (s.withCc x).sg = s.sg := rfl
@[simp] theorem State.withCc_iu (x : Cc) : (s.withCc x).iu = s.iu := rfl
@[simp] theorem State.withCc_ru (x : Cc) : (s.withCc x).ru = s.ru := rfl
@[simp] theorem State.withCc_rc (x : Cc) : (s.withCc x).rc = s.rc := rfl
@[simp] theorem State.withCc_ac (x : Cc) : (s.withCc x).ac = s.ac := rfl
@[simp] theorem State.withCc_xu (x : Cc) : (s.withCc x).xu = s.xu := rfl
@[simp] theorem State.withCc_li (x : Cc) : (s.withCc x).li = s.li := rfl

/-! ## `withSu` -/

@[simp] theorem State.withSu_pending (x : Su) : (s.withSu x).pending = s.pending := rfl
@[simp] theorem State.withSu_fiu (x : Su) : (s.withSu x).fiu = s.fiu := rfl
@[simp] theorem State.withSu_lm (x : Su) : (s.withSu x).lm = s.lm := rfl
@[simp] theorem State.withSu_cc (x : Su) : (s.withSu x).cc = s.cc := rfl
@[simp] theorem State.withSu_su (x : Su) : (s.withSu x).su = x := rfl
@[simp] theorem State.withSu_sg (x : Su) : (s.withSu x).sg = s.sg := rfl
@[simp] theorem State.withSu_iu (x : Su) : (s.withSu x).iu = s.iu := rfl
@[simp] theorem State.withSu_ru (x : Su) : (s.withSu x).ru = s.ru := rfl
@[simp] theorem State.withSu_rc (x : Su) : (s.withSu x).rc = s.rc := rfl
@[simp] theorem State.withSu_ac (x : Su) : (s.withSu x).ac = s.ac := rfl
@[simp] theorem State.withSu_xu (x : Su) : (s.withSu x).xu = s.xu := rfl
@[simp] theorem State.withSu_li (x : Su) : (s.withSu x).li = s.li := rfl

/-! ## `withSg` -/

@[simp] theorem State.withSg_pending (x : Sg) : (s.withSg x).pending = s.pending := rfl
@[simp] theorem State.withSg_fiu (x : Sg) : (s.withSg x).fiu = s.fiu := rfl
@[simp] theorem State.withSg_lm (x : Sg) : (s.withSg x).lm = s.lm := rfl
@[simp] theorem State.withSg_cc (x : Sg) : (s.withSg x).cc = s.cc := rfl
@[simp] theorem State.withSg_su (x : Sg) : (s.withSg x).su = s.su := rfl
@[simp] theorem State.withSg_sg (x : Sg) : (s.withSg x).sg = x := rfl
@[simp] theorem State.withSg_iu (x : Sg) : (s.withSg x).iu = s.iu := rfl
@[simp] theorem State.withSg_ru (x : Sg) : (s.withSg x).ru = s.ru := rfl
@[simp] theorem State.withSg_rc (x : Sg) : (s.withSg x).rc = s.rc := rfl
@[simp] theorem State.withSg_ac (x : Sg) : (s.withSg x).ac = s.ac := rfl
@[simp] theorem State.withSg_xu (x : Sg) : (s.withSg x).xu = s.xu := rfl
@[simp] theorem State.withSg_li (x : Sg) : (s.withSg x).li = s.li := rfl

/-! ## `withIu` -/

@[simp] theorem State.withIu_pending (x : Iu) : (s.withIu x).pending = s.pending := rfl
@[simp] theorem State.withIu_fiu (x : Iu) : (s.withIu x).fiu = s.fiu := rfl
@[simp] theorem State.withIu_lm (x : Iu) : (s.withIu x).lm = s.lm := rfl
@[simp] theorem State.withIu_cc (x : Iu) : (s.withIu x).cc = s.cc := rfl
@[simp] theorem State.withIu_su (x : Iu) : (s.withIu x).su = s.su := rfl
@[simp] theorem State.withIu_sg (x : Iu) : (s.withIu x).sg = s.sg := rfl
@[simp] theorem State.withIu_iu (x : Iu) : (s.withIu x).iu = x := rfl
@[simp] theorem State.withIu_ru (x : Iu) : (s.withIu x).ru = s.ru := rfl
@[simp] theorem State.withIu_rc (x : Iu) : (s.withIu x).rc = s.rc := rfl
@[simp] theorem State.withIu_ac (x : Iu) : (s.withIu x).ac = s.ac := rfl
@[simp] theorem State.withIu_xu (x : Iu) : (s.withIu x).xu = s.xu := rfl
@[simp] theorem State.withIu_li (x : Iu) : (s.withIu x).li = s.li := rfl

/-! ## `withRu` -/

@[simp] theorem State.withRu_pending (x : Ru) : (s.withRu x).pending = s.pending := rfl
@[simp] theorem State.withRu_fiu (x : Ru) : (s.withRu x).fiu = s.fiu := rfl
@[simp] theorem State.withRu_lm (x : Ru) : (s.withRu x).lm = s.lm := rfl
@[simp] theorem State.withRu_cc (x : Ru) : (s.withRu x).cc = s.cc := rfl
@[simp] theorem State.withRu_su (x : Ru) : (s.withRu x).su = s.su := rfl
@[simp] theorem State.withRu_sg (x : Ru) : (s.withRu x).sg = s.sg := rfl
@[simp] theorem State.withRu_iu (x : Ru) : (s.withRu x).iu = s.iu := rfl
@[simp] theorem State.withRu_ru (x : Ru) : (s.withRu x).ru = x := rfl
@[simp] theorem State.withRu_rc (x : Ru) : (s.withRu x).rc = s.rc := rfl
@[simp] theorem State.withRu_ac (x : Ru) : (s.withRu x).ac = s.ac := rfl
@[simp] theorem State.withRu_xu (x : Ru) : (s.withRu x).xu = s.xu := rfl
@[simp] theorem State.withRu_li (x : Ru) : (s.withRu x).li = s.li := rfl

/-! ## `withRc` -/

@[simp] theorem State.withRc_pending (x : Rc) : (s.withRc x).pending = s.pending := rfl
@[simp] theorem State.withRc_fiu (x : Rc) : (s.withRc x).fiu = s.fiu := rfl
@[simp] theorem State.withRc_lm (x : Rc) : (s.withRc x).lm = s.lm := rfl
@[simp] theorem State.withRc_cc (x : Rc) : (s.withRc x).cc = s.cc := rfl
@[simp] theorem State.withRc_su (x : Rc) : (s.withRc x).su = s.su := rfl
@[simp] theorem State.withRc_sg (x : Rc) : (s.withRc x).sg = s.sg := rfl
@[simp] theorem State.withRc_iu (x : Rc) : (s.withRc x).iu = s.iu := rfl
@[simp] theorem State.withRc_ru (x : Rc) : (s.withRc x).ru = s.ru := rfl
@[simp] theorem State.withRc_rc (x : Rc) : (s.withRc x).rc = x := rfl
@[simp] theorem State.withRc_ac (x : Rc) : (s.withRc x).ac = s.ac := rfl
@[simp] theorem State.withRc_xu (x : Rc) : (s.withRc x).xu = s.xu := rfl
@[simp] theorem State.withRc_li (x : Rc) : (s.withRc x).li = s.li := rfl

/-! ## `withAc` -/

@[simp] theorem State.withAc_pending (x : Ac) : (s.withAc x).pending = s.pending := rfl
@[simp] theorem State.withAc_fiu (x : Ac) : (s.withAc x).fiu = s.fiu := rfl
@[simp] theorem State.withAc_lm (x : Ac) : (s.withAc x).lm = s.lm := rfl
@[simp] theorem State.withAc_cc (x : Ac) : (s.withAc x).cc = s.cc := rfl
@[simp] theorem State.withAc_su (x : Ac) : (s.withAc x).su = s.su := rfl
@[simp] theorem State.withAc_sg (x : Ac) : (s.withAc x).sg = s.sg := rfl
@[simp] theorem State.withAc_iu (x : Ac) : (s.withAc x).iu = s.iu := rfl
@[simp] theorem State.withAc_ru (x : Ac) : (s.withAc x).ru = s.ru := rfl
@[simp] theorem State.withAc_rc (x : Ac) : (s.withAc x).rc = s.rc := rfl
@[simp] theorem State.withAc_ac (x : Ac) : (s.withAc x).ac = x := rfl
@[simp] theorem State.withAc_xu (x : Ac) : (s.withAc x).xu = s.xu := rfl
@[simp] theorem State.withAc_li (x : Ac) : (s.withAc x).li = s.li := rfl

/-! ## `withXu` -/

@[simp] theorem State.withXu_pending (x : Xu) : (s.withXu x).pending = s.pending := rfl
@[simp] theorem State.withXu_fiu (x : Xu) : (s.withXu x).fiu = s.fiu := rfl
@[simp] theorem State.withXu_lm (x : Xu) : (s.withXu x).lm = s.lm := rfl
@[simp] theorem State.withXu_cc (x : Xu) : (s.withXu x).cc = s.cc := rfl
@[simp] theorem State.withXu_su (x : Xu) : (s.withXu x).su = s.su := rfl
@[simp] theorem State.withXu_sg (x : Xu) : (s.withXu x).sg = s.sg := rfl
@[simp] theorem State.withXu_iu (x : Xu) : (s.withXu x).iu = s.iu := rfl
@[simp] theorem State.withXu_ru (x : Xu) : (s.withXu x).ru = s.ru := rfl
@[simp] theorem State.withXu_rc (x : Xu) : (s.withXu x).rc = s.rc := rfl
@[simp] theorem State.withXu_ac (x : Xu) : (s.withXu x).ac = s.ac := rfl
@[simp] theorem State.withXu_xu (x : Xu) : (s.withXu x).xu = x := rfl
@[simp] theorem State.withXu_li (x : Xu) : (s.withXu x).li = s.li := rfl

/-! ## `withLi` -/

@[simp] theorem State.withLi_pending (x : Li) : (s.withLi x).pending = s.pending := rfl
@[simp] theorem State.withLi_fiu (x : Li) : (s.withLi x).fiu = s.fiu := rfl
@[simp] theorem State.withLi_lm (x : Li) : (s.withLi x).lm = s.lm := rfl
@[simp] theorem State.withLi_cc (x : Li) : (s.withLi x).cc = s.cc := rfl
@[simp] theorem State.withLi_su (x : Li) : (s.withLi x).su = s.su := rfl
@[simp] theorem State.withLi_sg (x : Li) : (s.withLi x).sg = s.sg := rfl
@[simp] theorem State.withLi_iu (x : Li) : (s.withLi x).iu = s.iu := rfl
@[simp] theorem State.withLi_ru (x : Li) : (s.withLi x).ru = s.ru := rfl
@[simp] theorem State.withLi_rc (x : Li) : (s.withLi x).rc = s.rc := rfl
@[simp] theorem State.withLi_ac (x : Li) : (s.withLi x).ac = s.ac := rfl
@[simp] theorem State.withLi_xu (x : Li) : (s.withLi x).xu = s.xu := rfl
@[simp] theorem State.withLi_li (x : Li) : (s.withLi x).li = x := rfl

end Sys2Proof.Machine
end

