-- ==== Sys2Proof/Laws/Table.lean ====
section
/-!
SUPPORT. What a numbered table reads as after each operation on it, and that each keeps the canonical form; the same for the archive memory, which is such a table.
-/

namespace Sys2Proof.Machine

variable {α : Type}

/-! ## Reading after an operation -/

@[simp] theorem tableGet_nil (n : Nat) : tableGet ([] : List (Nat × α)) n = none := rfl

theorem tableGet_cons (k : Nat) (v : α) (t : List (Nat × α)) (n : Nat) :
    tableGet ((k, v) :: t) n = if k = n then some v else tableGet t n := rfl

theorem tableGet_put (t : List (Nat × α)) (n m : Nat) (v : α) :
    tableGet (tablePut t n v) m = if m = n then some v else tableGet t m := by
  induction t with
  | nil => simp [tablePut, tableGet_cons, eq_comm]
  | cons e t ih =>
    obtain ⟨k, w⟩ := e
    simp only [tablePut]
    by_cases h1 : n < k
    · simp only [if_pos h1, tableGet_cons, eq_comm (a := n)]
    · by_cases h2 : n = k
      · subst h2
        simp only [lt_self_iff_false, if_false, if_true, tableGet_cons, eq_comm (a := n)]
        by_cases hm : m = n <;> simp [hm]
      · rw [if_neg h1, if_neg h2]
        simp only [tableGet_cons, ih]
        by_cases hm : m = n
        · subst hm
          simp [Ne.symm h2]
        · simp [hm]

theorem tableGet_erase (t : List (Nat × α)) (n m : Nat) :
    tableGet (tableErase t n) m = if m = n then none else tableGet t m := by
  induction t with
  | nil => simp [tableErase]
  | cons e t ih =>
    obtain ⟨k, w⟩ := e
    simp only [tableErase] at ih
    by_cases hk : k = n
    · subst hk
      simp only [tableErase, List.filter_cons, ne_eq, not_true_eq_false, decide_false, Bool.false_eq_true, if_false, ih, tableGet_cons]
      split <;> simp_all [eq_comm]
    · simp only [tableErase, List.filter_cons, ne_eq, hk, not_false_eq_true, decide_true, if_true, tableGet_cons, ih]
      split <;> simp_all

theorem tableGet_update (t : List (Nat × α)) (n m : Nat) (g : α → α) :
    tableGet (tableUpdate t n g) m = if m = n then (tableGet t m).map g else tableGet t m := by
  induction t with
  | nil => simp [tableUpdate]
  | cons e t ih =>
    obtain ⟨k, w⟩ := e
    simp only [tableUpdate] at ih
    by_cases hk : k = n
    · subst hk
      simp only [tableUpdate, List.map_cons, if_true, tableGet_cons, ih]
      split <;> simp_all
    · simp only [tableUpdate, List.map_cons, hk, if_false, tableGet_cons, ih]
      split <;> simp_all

theorem tableGet_map (t : List (Nat × α)) (n : Nat) (g : α → α) :
    tableGet (t.map (fun e => (e.1, g e.2))) n = (tableGet t n).map g := by
  induction t with
  | nil => rfl
  | cons e t ih =>
    obtain ⟨k, w⟩ := e
    simp only [List.map_cons, tableGet_cons, ih]
    split <;> rfl

theorem mem_of_tableGet {t : List (Nat × α)} {n : Nat} {v : α} (h : tableGet t n = some v) : (n, v) ∈ t := by
  induction t with
  | nil => cases h
  | cons e t ih =>
    obtain ⟨k, w⟩ := e
    rw [tableGet_cons] at h
    split at h
    · cases h; subst_vars; exact List.mem_cons_self
    · exact List.mem_cons_of_mem _ (ih h)

theorem tableGet_of_mem {t : List (Nat × α)} (hs : tableSorted t) {e : Nat × α} (h : e ∈ t) : tableGet t e.1 = some e.2 := by
  induction t with
  | nil => cases h
  | cons x t ih =>
    obtain ⟨k, w⟩ := x
    have hs' := List.pairwise_cons.mp hs
    rcases List.mem_cons.mp h with rfl | h
    · simp [tableGet_cons]
    · have hk : k ≠ e.1 := Nat.ne_of_lt (hs'.1 e h)
      rw [tableGet_cons, if_neg hk]
      exact ih hs'.2 h

theorem tableGet_none_iff {t : List (Nat × α)} {n : Nat} : tableGet t n = none ↔ ∀ e ∈ t, e.1 ≠ n := by
  induction t with
  | nil => simp
  | cons x t ih =>
    obtain ⟨k, w⟩ := x
    rw [tableGet_cons]
    split
    · subst_vars
      simp
    · simp [*]

/-- The lowest free number is below the bound, free, and no lower one is free. -/
theorem tableFree_eq_some {t : List (Nat × α)} {b i : Nat} :
    tableFree t b = some i ↔ i < b ∧ tableGet t i = none ∧ ∀ j, j < i → tableGet t j ≠ none := by
  unfold tableFree
  rw [List.find?_range_eq_some]
  simp only [List.mem_range, Option.isNone_iff_eq_none, Bool.not_eq_true', Option.isNone_eq_false_iff, Option.isSome_iff_ne_none]
  constructor
  · rintro ⟨h1, h2, h3⟩; exact ⟨h2, h1, h3⟩
  · rintro ⟨h1, h2, h3⟩; exact ⟨h2, h1, h3⟩

theorem tableFree_eq_none {t : List (Nat × α)} {b : Nat} : tableFree t b = none ↔ ∀ i, i < b → (tableGet t i).isSome = true := by
  unfold tableFree
  rw [List.find?_eq_none]
  constructor
  · intro h i hi
    have := h i (List.mem_range.mpr hi)
    cases hg : tableGet t i with
    | none => simp [hg] at this
    | some v => rfl
  · intro h i hi
    have := h i (List.mem_range.mp hi)
    cases hg : tableGet t i with
    | none => simp [hg] at this
    | some v => simp

/-! ## The canonical form -/

theorem mem_tablePut {t : List (Nat × α)} {n : Nat} {v : α} {e : Nat × α} (h : e ∈ tablePut t n v) : e = (n, v) ∨ e ∈ t := by
  induction t with
  | nil => simp [tablePut] at h; exact .inl h
  | cons x t ih =>
    obtain ⟨k, w⟩ := x
    simp only [tablePut] at h
    split at h
    · simpa using h
    · split at h
      · rcases List.mem_cons.mp h with rfl | h
        · exact .inl rfl
        · exact .inr (List.mem_cons_of_mem _ h)
      · rcases List.mem_cons.mp h with rfl | h
        · exact .inr List.mem_cons_self
        · exact (ih h).imp_right (List.mem_cons_of_mem _)

theorem tableSorted_put {t : List (Nat × α)} (hs : tableSorted t) (n : Nat) (v : α) : tableSorted (tablePut t n v) := by
  induction t with
  | nil => simp [tablePut]
  | cons x t ih =>
    obtain ⟨k, w⟩ := x
    have hs' := List.pairwise_cons.mp hs
    simp only [tablePut]
    split
    · refine List.pairwise_cons.mpr ⟨?_, hs⟩
      intro e he
      rcases List.mem_cons.mp he with rfl | he
      · assumption
      · have := hs'.1 e he
        simp only at this ⊢
        omega
    · split
      · subst_vars
        exact List.pairwise_cons.mpr ⟨hs'.1, hs'.2⟩
      · refine List.pairwise_cons.mpr ⟨?_, ih hs'.2⟩
        intro e he
        rcases mem_tablePut he with rfl | he
        · simp only; omega
        · exact hs'.1 e he

theorem tableSorted_erase {t : List (Nat × α)} (hs : tableSorted t) (n : Nat) : tableSorted (tableErase t n) :=
  List.Pairwise.filter _ hs

theorem tableSorted_update {t : List (Nat × α)} (hs : tableSorted t) (n : Nat) (g : α → α) : tableSorted (tableUpdate t n g) := by
  unfold tableUpdate tableSorted
  rw [List.pairwise_map]
  refine List.Pairwise.imp ?_ hs
  intro a b hab
  split <;> split <;> exact hab

/-! ## The archive memory -/

/-- Writing words one after the other keeps the canonical form of the memory. -/
theorem dramWrite_wf {d : List (Nat × BitVec 73)} (hd : tableSorted d) (base : Nat) (ws : List (BitVec 73)) :
    tableSorted (dramWrite d base ws) := by
  unfold dramWrite
  induction ws.zipIdx with
  | nil => exact hd
  | cons e es ih => exact tableSorted_put ih _ _

theorem dramWrite_foldr_get (d : List (Nat × BitVec 73)) (base k : Nat) (ws : List (BitVec 73)) (a : Nat) :
    tableGet ((ws.zipIdx k).foldr (fun e t => tablePut t (base + e.2) e.1) d) a =
      if base + k ≤ a ∧ a < base + k + ws.length then ws[a - (base + k)]? else tableGet d a := by
  induction ws generalizing k with
  | nil => simp
  | cons w ws ih =>
    simp only [List.zipIdx_cons, List.foldr_cons, tableGet_put, ih, List.length_cons]
    by_cases h : a = base + k
    · subst h; simp
    · rw [if_neg h]
      by_cases h1 : base + (k + 1) ≤ a ∧ a < base + (k + 1) + ws.length
      · rw [if_pos h1, if_pos (by omega)]
        have : a - (base + k) = (a - (base + (k + 1))) + 1 := by omega
        rw [this, List.getElem?_cons_succ]
      · rw [if_neg h1, if_neg (by omega)]

/-- What an address of the memory reads after words were written from `base` on: the words where they went, everything else as before. -/
theorem dramWrite_get (d : List (Nat × BitVec 73)) (base : Nat) (ws : List (BitVec 73)) (a : Nat) :
    tableGet (dramWrite d base ws) a = if base ≤ a ∧ a < base + ws.length then ws[a - base]? else tableGet d a := by
  have := dramWrite_foldr_get d base 0 ws a
  simpa [dramWrite] using this

theorem writeWords_wf {ac : Ac} (h : tableSorted ac.dram) (g : Group) (page n : Nat) (data : List (BitVec 64)) :
    tableSorted (ac.writeWords g page n data).dram := dramWrite_wf h _ _

theorem writeBack_wf {ac : Ac} (h : tableSorted ac.dram) (g : Group) (page : Nat) (rs : List (Nat × WordRead)) :
    tableSorted (ac.writeBack g page rs).dram := by
  simp only [Ac.writeBack]
  induction rs.filter (fun r => r.2.outcome = .corrected) with
  | nil => exact h
  | cons e es ih => exact tableSorted_put ih _ _

/-- Writing back what a read corrected changes no address outside the words read. -/
theorem writeBack_get_other (ac : Ac) (g : Group) (page : Nat) (rs : List (Nat × WordRead)) (a : Nat)
    (h : ∀ r ∈ rs, wordAddress g page r.1 ≠ a) : tableGet (ac.writeBack g page rs).dram a = tableGet ac.dram a := by
  simp only [Ac.writeBack]
  have h' : ∀ r ∈ rs.filter (fun r => r.2.outcome = .corrected), wordAddress g page r.1 ≠ a := fun r hr => h r (List.mem_filter.mp hr).1
  generalize rs.filter (fun r => r.2.outcome = .corrected) = cs at h'
  induction cs with
  | nil => rfl
  | cons e es ih =>
    rw [List.foldr_cons, tableGet_put, if_neg (Ne.symm (h' e List.mem_cons_self))]
    exact ih (fun r hr => h' r (List.mem_cons_of_mem _ hr))

/-- The memory is its only field that a write of words changes. -/
theorem writeWords_eq (ac : Ac) (g : Group) (page n : Nat) (data : List (BitVec 64)) :
    ac.writeWords g page n data = { ac with dram := (ac.writeWords g page n data).dram } := rfl

/-- The memory is the only field that writing back changes. -/
theorem writeBack_eq (ac : Ac) (g : Group) (page : Nat) (rs : List (Nat × WordRead)) :
    ac.writeBack g page rs = { ac with dram := (ac.writeBack g page rs).dram } := rfl

end Sys2Proof.Machine
end

