-- ==== Sys2Proof/Laws/Requests.lean ====
section
/-!
SUPPORT. What each shared operation comes to, once: passing a request (R193, R196), attention (R199), group states and quota (R123, R157), placing and releasing holds
(R125 to R130), reports (R102).
-/

namespace Sys2Proof.Machine

variable {α : Type}

/-! ## Requests -/

/-- A frame that is received brings its effect about, one that arrives while the RESET pin is held none. -/
theorem State.received_of {s : State} (t : State) (h : s.li.resetHeld = false) : s.received t = t := by
  simp [State.received, h]

theorem State.received_held {s : State} (t : State) (h : s.li.resetHeld = true) : s.received t = s := by
  simp [State.received, h]

/-- The RESET pin while it is held and when it is released, and power-on: whether frames are received after each. -/
@[simp] theorem State.hold_resetHeld (s : State) : s.hold.li.resetHeld = true := rfl
@[simp] theorem State.restart_resetHeld (s : State) (straps : Tri Straps) : (s.restart straps).li.resetHeld = false := rfl
@[simp] theorem State.hold_pending (s : State) : s.hold.pending = s.pending := rfl
@[simp] theorem State.restart_pending (s : State) (straps : Tri Straps) : (s.restart straps).pending = s.pending := rfl

/-- Every ALERT line is released while the pin is held (R201). -/
theorem Li.alertLine_held {li : Li} (l : Link) (h : li.resetHeld = true) : li.alertLine l = false := by
  simp [Li.alertLine, h]

theorem Li.alertLine_released {li : Li} (l : Link) (h : li.resetHeld = false) : li.alertLine l = alertActive (li.links.get l) := by
  simp [Li.alertLine, h]

/-- A request whose role does not reach it: the Link Interface answers ROLE. -/
theorem passRequest_role {k : Nat} {l : Link} {s : State} (p : Payload α) (body : α → State → State × Reply)
    (hr : s.li.resetHeld = false) (h : reachesKind (s.li.links.get l).role k = false) :
    passRequest k l p s body = s.withLi (s.li.answer l (BitVec.ofNat 8 k) ⟨.role, []⟩) := by
  simp [passRequest, h, State.received_of _ hr]

/-- A request of the wrong length: the Link Interface answers BAD_ARGUMENT. -/
theorem passRequest_length {k : Nat} {l : Link} {s : State} (body : α → State → State × Reply) (h : s.mayAsk l k) :
    passRequest k l (.wrongLength : Payload α) s body = s.withLi (s.li.answer l (BitVec.ofNat 8 k) ⟨.badArgument, []⟩) := by
  simp only [passRequest, if_pos h.2, State.received_of _ h.1]

/-- A request that is passed on: its block takes it with the slot already WAITING, and the block's reply sets out. -/
theorem passRequest_fits {k : Nat} {l : Link} {s : State} (a : α) (body : α → State → State × Reply) (h : s.mayAsk l k) :
    passRequest k l (.fits a) s body =
      (body a (s.withLi (s.li.await l (BitVec.ofNat 8 k)))).1.sendReply l s.li.nextRequest
        (body a (s.withLi (s.li.await l (BitVec.ofNat 8 k)))).2 := by
  simp only [passRequest, if_pos h.2, State.received_of _ h.1]

/-- A request that arrives while the RESET pin is held is not received. -/
theorem passRequest_held {k : Nat} {l : Link} {s : State} (p : Payload α) (body : α → State → State × Reply)
    (h : s.li.resetHeld = true) : passRequest k l p s body = s := State.received_held _ h

/-- The same for a request the Link Interface answers itself. -/
theorem answerRequest_fits {k : Nat} {l : Link} {s : State} (a : α) (body : α → State → State × Reply) (h : s.mayAsk l k) :
    answerRequest k l (.fits a) s body =
      (body a s).1.withLi ((body a s).1.li.answer l (BitVec.ofNat 8 k) (body a s).2) := by
  simp only [answerRequest, if_pos h.2, State.received_of _ h.1]

theorem answerRequest_role {k : Nat} {l : Link} {s : State} (p : Payload α) (body : α → State → State × Reply)
    (hr : s.li.resetHeld = false) (h : reachesKind (s.li.links.get l).role k = false) :
    answerRequest k l p s body = s.withLi (s.li.answer l (BitVec.ofNat 8 k) ⟨.role, []⟩) := by
  simp [answerRequest, h, State.received_of _ hr]

theorem answerRequest_length {k : Nat} {l : Link} {s : State} (body : α → State → State × Reply) (h : s.mayAsk l k) :
    answerRequest k l (.wrongLength : Payload α) s body = s.withLi (s.li.answer l (BitVec.ofNat 8 k) ⟨.badArgument, []⟩) := by
  simp only [answerRequest, if_pos h.2, State.received_of _ h.1]

theorem answerRequest_held {k : Nat} {l : Link} {s : State} (p : Payload α) (body : α → State → State × Reply)
    (h : s.li.resetHeld = true) : answerRequest k l p s body = s := State.received_held _ h

/-- A body that leaves the state as it got it, answered over the wire. -/
theorem sendReply_await (s : State) (l : Link) (k : Nat) (r : Reply) :
    (s.withLi (s.li.await l (BitVec.ofNat 8 k))).sendReply l s.li.nextRequest r = { s with li := s.li.passed l k r } := rfl

/-- Every observer's request reaches the Link Interface (R195). -/
theorem reachesKind_any (role : Role) (k : Nat) (h : k ≤ 12) : reachesKind role k = true := by
  cases role <;> simp [reachesKind, requestRow, h, roleReaches]

/-! ## Reports and flags -/

@[simp] theorem State.sendReport_eq (s : State) (r : Report) :
    s.sendReport r = { s with iu := { s.iu with reports := s.iu.reports ++ [r] } } := rfl

@[simp] theorem State.sendReports_eq (s : State) (rs : List Report) :
    s.sendReports rs = { s with iu := { s.iu with reports := s.iu.reports ++ rs } } := rfl

@[simp] theorem State.flagAll_eq (s : State) (k : AttentionClass) : s.flagAll k = { s with li := s.li.raiseAll k } := rfl

@[simp] theorem State.flagOn_eq (s : State) (l : Link) (k : AttentionClass) : s.flagOn l k = { s with li := s.li.raiseOn l k } := rfl

@[simp] theorem State.sendReply_eq (s : State) (l : Link) (n : Nat) (r : Reply) :
    s.sendReply l n r = { s with li := { s.li with replies := s.li.replies ++ [⟨l, n, r⟩] } } := rfl

/-- Raising a flag on every link leaves roles, slots and enables alone. -/
theorem Li.raiseAll_get (li : Li) (k : AttentionClass) (m : Link) :
    (li.raiseAll k).links.get m = { li.links.get m with flags := (li.links.get m).flags.put k true } := by
  simp [Li.raiseAll, LinkState.raise]

/-- Raising a flag on one link changes that link's flags and nothing else. -/
theorem Li.raiseOn_get (li : Li) (l : Link) (k : AttentionClass) (m : Link) :
    (li.raiseOn l k).links.get m =
      if m = l then { li.links.get m with flags := (li.links.get m).flags.put k true } else li.links.get m := by
  simp only [Li.raiseOn, Tri.get_update]
  rfl

/-! ## Group states and quota -/

/-- The quota follows the group states at once (R123, R157). -/
theorem State.regroup_eq (s : State) (ac : Ac) :
    s.regroup ac = { s with
      ac := ac
      ru := { s.ru with
        healthyPages := 524288 * ac.healthyGroups
        quota := 524288 * ac.healthyGroups / 2 } } := rfl

/-- A group that faults lowers the quota and flags ARCHIVE (R157, R158, R165). -/
theorem State.faultGroup_eq (s : State) (g : Group) :
    s.faultGroup g =
      (s.regroup { s.ac with groups := s.ac.groups.update g (fun x => { x with state := .faulted }) }).flagAll .archive := rfl

/-! ## Placing and releasing holds -/

/-- What a placement that was not refused puts into the Hold Table (R125 to R127). -/
theorem judgePlacement_placed {s : State} {o : Owner} {a b reason i : Nat} {h : Hold} {c : Bool}
    (hp : judgePlacement s o a b reason = .placed i h c) :
    a ≤ b ∧ s.ac.state = .recording ∧ s.retentionFloor ≤ b ∧ b ≤ s.fiu.openTick + 35999 ∧
      committedSum s.ru.holds + h.pages ≤ s.ru.quota ∧ i < 64 ∧ tableGet s.ru.holds i = none ∧
      (∀ j, j < i → tableGet s.ru.holds j ≠ none) ∧ h = ⟨s.ru.counter, o, max a s.retentionFloor, b, reason⟩ ∧
      c = decide (a < s.retentionFloor) := by
  unfold judgePlacement at hp
  split at hp
  · cases hp
  split at hp
  · cases hp
  split at hp
  · cases hp
  unfold placeAbove at hp
  simp only at hp
  split at hp
  · cases hp
  split at hp
  · cases hp
  split at hp
  · cases hp
  rename_i h1 h2 h3 h4 h5 _ j hf
  cases hp
  have hf' := tableFree_eq_some.mp hf
  refine ⟨by omega, by simpa using h2, by omega, ?_, by omega, hf'.1, hf'.2.1, hf'.2.2, rfl, rfl⟩
  have : s.retentionHorizon = s.fiu.openTick + 35999 := rfl
  omega

/-- An internal release frees the entry exactly when its owner is the one named (R130). -/
theorem Ru.releaseOwned_eq (ru : Ru) (i : Nat) (o : Owner) :
    ru.releaseOwned i o = if (tableGet ru.holds i).map (·.owner) = some o then ru.release i else ru := by
  unfold Ru.releaseOwned
  split
  · simp_all
  · simp_all

/-- A release leaves every other entry, the counter and the quota alone. -/
theorem Ru.releaseOwned_get (ru : Ru) (i j : Nat) (o : Owner) :
    tableGet (ru.releaseOwned i o).holds j = tableGet ru.holds j ∨
      j = i ∧ tableGet (ru.releaseOwned i o).holds j = none ∧ (tableGet ru.holds j).map (·.owner) = some o := by
  rw [Ru.releaseOwned_eq]
  split
  · simp only [Ru.release, tableGet_erase]
    by_cases h : j = i
    · subst h; right; simp_all
    · left; rw [if_neg h]
  · exact .inl rfl

theorem Ru.releaseOwned_rest (ru : Ru) (i : Nat) (o : Owner) :
    (ru.releaseOwned i o).counter = ru.counter ∧ (ru.releaseOwned i o).healthyPages = ru.healthyPages ∧
      (ru.releaseOwned i o).quota = ru.quota := by
  rw [Ru.releaseOwned_eq]
  split <;> exact ⟨rfl, rfl, rfl⟩

end Sys2Proof.Machine
end

