-- ==== Sys2Proof/Laws/Operations.lean ====
section
/-!
SUPPORT. What the operations that several commands share can do: a due lapse and a due stall (log entry 4), the ending of a job (R187), the hand-over (R75), opening and
closing a record (R80, R82, R89), raising an incident (R103 to R112), what a read notes (R169 to R172), the test's advance (R160, R161), operand readers (R197).
-/

namespace Sys2Proof.Machine

/-! ## Operands -/

theorem feedOf_eq_some {b : Byte} {f : Feed} : feedOf b = some f ↔ b.toNat = f.val := by
  unfold feedOf
  split
  · simp [Fin.ext_iff]
  · have := f.isLt
    simp
    omega

theorem groupOf_eq_some {b : Byte} {g : Group} : groupOf b = some g ↔ b.toNat = g.val := by
  unfold groupOf
  split
  · simp [Fin.ext_iff]
  · have := g.isLt
    simp
    omega

theorem limitIndexOf_eq_some {b : Byte} {i : Fin 8} : limitIndexOf b = some i ↔ b.toNat = i.val := by
  unfold limitIndexOf
  split
  · simp [Fin.ext_iff]
  · have := i.isLt
    simp
    omega

/-- A value brought into a range lies in it, and is itself when it lay there. -/
theorem clampInt_range {lo hi v : Int} (h : lo ≤ hi) : lo ≤ clampInt lo hi v ∧ clampInt lo hi v ≤ hi ∧ (lo ≤ v → v ≤ hi → clampInt lo hi v = v) := by
  unfold clampInt
  omega

/-- A role reaches a kind exactly as the request table says (R195). -/
theorem reachesKind_iff (role : Role) (k : Nat) :
    reachesKind role k = true ↔
      k ≤ 12 ∨ (16 ≤ k ∧ k ≤ 20 ∧ (role = .scheduler ∨ role = .schedulerAuditor)) ∨
        (32 ≤ k ∧ k ≤ 47 ∧ (role = .auditor ∨ role = .schedulerAuditor)) := by
  unfold reachesKind requestRow
  by_cases h1 : k ≤ 12
  · cases role <;> simp [h1, roleReaches]
  · by_cases h2 : 16 ≤ k ∧ k ≤ 20
    · cases role <;> (simp [h1, h2, roleReaches]; try omega)
    · by_cases h3 : 32 ≤ k ∧ k ≤ 47
      · cases role <;> (simp [h1, h2, h3, roleReaches]; try omega)
      · simp only [h1, h2, h3, if_false, false_or]
        constructor
        · intro h; cases h
        · omega

/-! ## A due lapse -/

theorem State.lapse_eq (s : State) :
    s.lapse = { s with
      su := { s.su with owner := none, timer := 0, lapseDue := false }
      sg := { s.sg with table := s.sg.table.map (fun e => (e.1, e.2.unconfirm)) }
      iu := { s.iu with reports := s.iu.reports ++ [clockReport .scheduleLost s.raiseTickNow s.su.timer s.su.limit] }
      li := s.li.raiseAll .schedule } := rfl

/-- Where no lapse is due nothing is taken first. -/
theorem State.lapseFirst_of_none {s : State} (h : s.su.lapseDue = false) : s.lapseFirst = s := by
  simp [State.lapseFirst, h]

/-- The same with the requesting link already waiting. -/
theorem State.lapseFirst_withLi {s : State} (li : Li) (h : s.su.lapseDue = false) : (s.withLi li).lapseFirst = s.withLi li := by
  simp [State.lapseFirst, h]

/-! ## The ending of a job, and a due stall -/

/-- The active job's lookup changes the Export Unit and the read request that waits. -/
theorem State.lookup_frame (s : State) (j : Job) :
    ∃ x r, s.lookup j = { s with xu := x, ac := { s.ac with exportRequest := r } } := by
  unfold State.lookup
  split
  · exact ⟨_, s.ac.exportRequest, rfl⟩
  · exact ⟨_, s.ac.exportRequest, rfl⟩
  · exact ⟨_, _, rfl⟩

theorem State.activate_frame (s : State) : ∃ x r, s.activate = { s with xu := x, ac := { s.ac with exportRequest := r } } := by
  unfold State.activate
  split
  · exact ⟨s.xu, s.ac.exportRequest, rfl⟩
  · exact State.lookup_frame s _

theorem State.endJob_eq (s : State) (j : Job) (st : EndStatus) :
    s.endJob j st = { s with
      ru := s.ru.releaseOwned j.pin (.job j.number)
      xu := { s.xu with
        jobs := s.xu.jobs.filter (fun x => decide (x.number ≠ j.number))
        endings := s.xu.endings.set j.link (some ⟨j.number, st, j.sent, j.damaged, j.unavailable, j.absent⟩) }
      li := s.li.raiseOn j.link .exports } := rfl

/-- The ending of the active job releases its pin, flags EXPORT on its link, and changes the Export Unit and the read request that waits. -/
theorem State.endActive_frame (s : State) (j : Job) (st : EndStatus) :
    ∃ x r, s.endActive j st = { s with
      ru := s.ru.releaseOwned j.pin (.job j.number)
      xu := x
      ac := { s.ac with exportRequest := r }
      li := s.li.raiseOn j.link .exports } := by
  unfold State.endActive
  exact State.activate_frame _

/-- Where no stall is due nothing is taken first. -/
theorem State.stallFirst_of_none {s : State} (h : s.xu.stallDue = false) : s.stallFirst = s := by
  simp [State.stallFirst, h]

theorem State.stallFirst_withLi {s : State} (li : Li) (h : s.xu.stallDue = false) : (s.withLi li).stallFirst = s.withLi li := by
  simp [State.stallFirst, h]

/-- A stall that is taken first is an ending of the active job, or there is none. -/
theorem State.stallFirst_cases (s : State) :
    s.stallFirst = s ∨ ∃ j rest st, s.xu.jobs = j :: rest ∧ s.stallFirst = s.endActive j st := by
  unfold State.stallFirst
  split
  · unfold State.stall
    split
    · exact .inl rfl
    · exact .inr ⟨_, _, _, by assumption, rfl⟩
  · exact .inl rfl

/-! ## The hand-over -/

/-- The hand-over of a tick moves the entries at it from the lists to the Segment Unit (R74, R75). -/
theorem State.handOver_get (s : State) (t : Nat) (f : Feed) :
    (s.handOver t).su.lists.get f = entriesNotAt t (s.su.lists.get f) ∧
      (s.handOver t).sg.inbox.get f = s.sg.inbox.get f ++ [⟨t, entriesAt t (s.su.lists.get f)⟩] ∧ (s.handOver t).su.handed = some t := by
  simp [State.handOver, State.withSu, State.withSg]

/-! ## Records -/

/-- A record that was opened took the lowest free slot, or that of the record evicted (R80), and the Level Meter was told (R24). -/
theorem State.openSegment_some {s t : State} {f : Feed} {u : Nat} {o : Opening} (h : s.openSegment f u o = some t) :
    ∃ i table, takeSlot s.sg.table = some (i, table) ∧
      t = { s with
        sg := { s.sg with table := tablePut table i (newSegment s.sg.limits f u o) }
        lm := s.lm.opened f o.kind ⟨i, u⟩ } := by
  unfold State.openSegment at h
  split at h
  · cases h
  · cases h
    exact ⟨_, _, by assumption, rfl⟩

/-- Where a slot is free a record can be opened in the lowest one. -/
theorem takeSlot_free {table : List (Nat × Segment)} {i : Nat} (hi : i < 128) (h : tableGet table i = none)
    (hl : ∀ j, j < i → tableGet table j ≠ none) : takeSlot table = some (i, table) := by
  have : tableFree table Config.segmentSlots = some i := tableFree_eq_some.mpr ⟨hi, h, hl⟩
  simp only [takeSlot, this]

theorem State.closeSegment_eq (s : State) (e : Nat × Segment) (cause : AnnounceKind × Nat) :
    s.closeSegment e cause = { s with
      sg := { s.sg with
        table := tableUpdate s.sg.table e.1
          (fun r => r.closeWith (s.sg.closeSeq + 1) cause ((s.lm.integratorOf e.2.feed e.2.kind).map Integrator.results))
        closeSeq := s.sg.closeSeq + 1 }
      lm := s.lm.closed e.2.feed e.2.kind } := rfl

/-! ## Raising an incident -/

/-- Room is made by the discard of one record and of its hold, when the log is full (R112). -/
theorem State.makeRoom_cases (s : State) :
    s.makeRoom = s ∨ ∃ r, r ∈ s.iu.log ∧ discardChoice s.iu.log = some r ∧ 256 ≤ s.iu.log.length ∧
      s.makeRoom = { s with iu := s.iu.afterDiscard r, ru := s.ru.afterDiscard r } := by
  unfold State.makeRoom
  split
  · exact .inl rfl
  · rename_i hl
    split
    · rename_i r hr
      refine .inr ⟨r, ?_, hr, Nat.le_of_not_lt hl, rfl⟩
      unfold discardChoice at hr
      split at hr
      · cases hr
        exact List.mem_of_find?_eq_some (by assumption)
      · exact List.mem_of_mem_head? hr
    · exact .inl rfl

theorem State.appendIncident_eq (s : State) (x : Incident) :
    s.appendIncident x = { s with
      iu := { s.iu with log := s.iu.log ++ [x], nextSerial := s.iu.nextSerial + 1 }
      li := s.li.raiseAll x.mode.attention } := rfl

/-- A raised incident is appended behind the room made for it, with a hold placed or with the hold table as it was (R103, R107 to R110). -/
theorem State.raiseIncident_cases (s : State) (p : PolicyEntry) (r : Report) :
    (∃ x, x.serial = s.makeRoom.iu.nextSerial ∧ x.mode = p.mode ∧ x.holdIndex = none ∧ s.raiseIncident p r = s.makeRoom.appendIncident x) ∨
    (∃ x i h c, x.serial = s.makeRoom.iu.nextSerial ∧ x.mode = p.mode ∧ x.holdIndex = some i ∧
      autoHold s.makeRoom p s.makeRoom.iu.nextSerial r = .placed i h c ∧
      s.raiseIncident p r = (s.makeRoom.withRu (s.makeRoom.ru.take (.placed i h c))).appendIncident x) := by
  unfold State.raiseIncident
  simp only
  split
  · cases ha : autoHold s.makeRoom p s.makeRoom.iu.nextSerial r with
    | refused st => exact .inl ⟨_, rfl, rfl, rfl, rfl⟩
    | placed i h c => exact .inr ⟨_, i, h, c, rfl, rfl, rfl, rfl, rfl⟩
  · exact .inl ⟨_, rfl, rfl, rfl, rfl⟩

/-! ## What a read notes -/

/-- A read's notes change the counts of its group and the capture, and no group state (R169, R170). -/
theorem Ac.noteRead_frame (ac : Ac) (g : Group) (page : Nat) (who : Requester) (ns : List Note) :
    ∃ gs c, ac.noteRead g page who ns = { ac with groups := gs, capture := c } ∧ (∀ h, (gs.get h).state = (ac.groups.get h).state) ∧
      (∀ x, ac.capture = some x → c = some x) := by
  refine ⟨_, _, rfl, ?_, ?_⟩
  · intro h
    rw [Quad.get_update]
    split <;> rfl
  · intro x hx
    simp [hx]

/-- Damage found changes the Damaged Page List and sends at most one report (R171, R172). -/
theorem State.noteDamage_frame (s : State) (p : Nat) (ns : List Note) :
    ∃ d rs, s.noteDamage p ns = { s with ac := { s.ac with damaged := d }, iu := { s.iu with reports := s.iu.reports ++ rs } } ∧
      rs.length ≤ 1 := by
  unfold State.noteDamage
  split
  · unfold State.listDamage
    split
    · exact ⟨s.ac.damaged, [], by simp, by simp⟩
    · simp only
      by_cases hl : s.ac.damaged.length < Config.damagedListSize
      · rw [if_pos hl]
        split
        · exact ⟨_, _, rfl, by simp⟩
        · exact ⟨_, [], by simp only [List.append_nil]; rfl, by simp⟩
      · rw [if_neg hl]
        split
        · exact ⟨s.ac.damaged, _, rfl, by simp⟩
        · exact ⟨s.ac.damaged, [], by simp, by simp⟩
  · exact ⟨s.ac.damaged, [], by simp, by simp⟩

/-- Without an uncorrectable word there is no damage. -/
theorem State.noteDamage_clean (s : State) (p : Nat) (ns : List Note) (h : ∀ n ∈ ns, n.bad = false) : s.noteDamage p ns = s := by
  unfold State.noteDamage
  have : ns.find? (·.bad) = none := List.find?_eq_none.mpr (fun n hn => by simp [h n hn])
  rw [this]

/-! ## The test -/

/-- The test moves on within its bank, or completes (R160, R161). -/
theorem State.testAdvance_cases (s : State) (x : TestPosition) (faulted : Bool) :
    (∃ y, s.testAdvance x faulted = s.withAc { s.ac with test := some y, testRequest := true } ∧ y.reading = false) ∨
      s.testAdvance x faulted = s.testComplete := by
  unfold State.testAdvance
  split
  · exact .inl ⟨_, rfl, rfl⟩
  · split
    · exact .inl ⟨_, rfl, rfl⟩
    · exact .inr rfl

/-! ## The Recorder -/

/-- A tick that stays unrecorded sets the stall mark and reports it once (R149). -/
theorem State.unrecorded_frame (s : State) (c : Nat) :
    (s.unrecorded c).rc = { s.rc with stall := true } ∧
      s.unrecorded c = { s with rc := { s.rc with stall := true }, iu := (s.unrecorded c).iu } := by
  unfold State.unrecorded
  split
  · rename_i h
    have : s.rc = { s.rc with stall := true } := by rw [← h]
    exact ⟨this, by rw [← this]⟩
  · exact ⟨rfl, rfl⟩

/-- The page that the search finds is writable and installed (R144). -/
theorem searchFrom_some {ok : Nat → Bool} {start size n p : Nat} (h : searchFrom ok start size n = some p) (hs : 0 < size) :
    ok p = true ∧ p < size := by
  induction n with
  | zero => cases h
  | succ n ih =>
    unfold searchFrom at h
    split at h
    · cases h
      exact ⟨by assumption, Nat.mod_lt _ hs⟩
    · exact ih h

end Sys2Proof.Machine
end

