-- ==== Sys2Proof/Laws/PerInstr.lean ====
section
/-!
SUPPORT. A fact about every command as syntax: the kind byte of a request. One lemma for each constructor.
-/

namespace Sys2Proof.Laws.KindByte

open Sys2Proof Sys2Proof.Machine

/-- A command that is no request has no request bytes; a request's kind stands in the request table, and its frame carries that kind (R190, R195). -/
def Statement (i : Instr) : Prop :=
  (requestKind i = none → requestBytes i = none) ∧
    ∀ l k, requestKind i = some (l, k) → (requestRow k).isSome = true ∧ 0 < k ∧ ∀ r, requestBytes i = some r → r.1 = k

/-- The kind that a request's bytes carry is the one put before them. -/
theorem kind_of_payload {α : Type} {f : α → List Byte} {p : Payload α} {n : Nat} {r : Nat × List Byte}
    (h : (payloadBytes f p).map (Prod.mk n) = some r) : r.1 = n := by
  cases p with
  | fits a =>
    cases h
    rfl
  | wrongLength => cases h

/-- A request of a listed kind whose bytes carry that kind. -/
theorem of_request {i : Instr} {l : Link} {k : Nat} (h : requestKind i = some (l, k)) (hr : (requestRow k).isSome = true) (hk : 0 < k)
    (hb : ∀ r, requestBytes i = some r → r.1 = k) : Statement i := by
  refine ⟨fun h0 => ?_, fun l' k' h' => ?_⟩
  · rw [h] at h0
    cases h0
  · rw [h] at h'
    cases h'
    exact ⟨hr, hk, hb⟩

/-- A command that is no request. -/
theorem of_event {i : Instr} (h : requestKind i = none) (hb : requestBytes i = none) : Statement i := by
  refine ⟨fun _ => hb, fun l k h' => ?_⟩
  rw [h] at h'
  cases h'

theorem powerOn (straps : Tri Straps) : Statement (.powerOn straps) :=
  of_event rfl rfl

theorem resetPin (pin : ResetPin) : Statement (.resetPin pin) :=
  of_event rfl rfl

theorem wordClockPeriod (frames : Oct LaneFrame) : Statement (.wordClockPeriod frames) :=
  of_event rfl rfl

theorem laneLock (f : Feed) : Statement (.laneLock f) :=
  of_event rfl rfl

theorem captionPacket (p : Packet) : Statement (.captionPacket p) :=
  of_event rfl rfl

theorem tickClose (xbsy : Bool) : Statement (.tickClose xbsy) :=
  of_event rfl rfl

theorem captionStale (f : Feed) : Statement (.captionStale f) :=
  of_event rfl rfl

theorem carriageAbsent (f : Feed) : Statement (.carriageAbsent f) :=
  of_event rfl rfl

theorem heartbeatLapse : Statement .heartbeatLapse :=
  of_event rfl rfl

theorem settlement (f : Feed) : Statement (.settlement f) :=
  of_event rfl rfl

theorem settledTickNoticeLm (f : Feed) : Statement (.settledTickNoticeLm f) :=
  of_event rfl rfl

theorem settledTickNoticeCc (f : Feed) : Statement (.settledTickNoticeCc f) :=
  of_event rfl rfl

theorem verdict (f : Feed) : Statement (.verdict f) :=
  of_event rfl rfl

theorem incidentReport (n : Nat) : Statement (.incidentReport n) :=
  of_event rfl rfl

theorem recordWriteGrant : Statement .recordWriteGrant :=
  of_event rfl rfl

theorem recordWriteCompletion : Statement .recordWriteCompletion :=
  of_event rfl rfl

theorem accessTimeout (words : Nat) (wrong : WrongLanes) : Statement (.accessTimeout words wrong) :=
  of_event rfl rfl

theorem scrubReadGrant : Statement .scrubReadGrant :=
  of_event rfl rfl

theorem scrubReadCompletion (wrong : WrongLanes) : Statement (.scrubReadCompletion wrong) :=
  of_event rfl rfl

theorem exportReadGrant : Statement .exportReadGrant :=
  of_event rfl rfl

theorem exportReadCompletion (wrong : WrongLanes) : Statement (.exportReadCompletion wrong) :=
  of_event rfl rfl

theorem testAccessGrant : Statement .testAccessGrant :=
  of_event rfl rfl

theorem testAccessCompletion (wrong : WrongLanes) : Statement (.testAccessCompletion wrong) :=
  of_event rfl rfl

theorem exportStrobe : Statement .exportStrobe :=
  of_event rfl rfl

theorem exportStall : Statement .exportStall :=
  of_event rfl rfl

theorem frameError (l : Link) (bytes : List Byte) : Statement (.frameError l bytes) :=
  of_event rfl rfl

theorem unknownRequest (l : Link) (kind : Byte) (payload : List Byte) : Statement (.unknownRequest l kind payload) :=
  of_event rfl rfl

theorem replyArrival (n : Nat) : Statement (.replyArrival n) :=
  of_event rfl rfl

theorem fetch (l : Link) (payload : List Byte) (clocked : Nat) : Statement (.fetch l payload clocked) :=
  of_event rfl rfl

theorem status (l : Link) (p : Payload Unit) : Statement (.status l p) :=
  of_request rfl rfl (by decide) (fun _ h => kind_of_payload h)

theorem meter (l : Link) (p : Payload Byte) : Statement (.meter l p) :=
  of_request rfl rfl (by decide) (fun _ h => kind_of_payload h)

theorem segmentRead (l : Link) (p : Payload SegmentReadArgs) : Statement (.segmentRead l p) :=
  of_request rfl rfl (by decide) (fun _ h => kind_of_payload h)

theorem segmentList (l : Link) (p : Payload SegmentListArgs) : Statement (.segmentList l p) :=
  of_request rfl rfl (by decide) (fun _ h => kind_of_payload h)

theorem incidentFetch (l : Link) (p : Payload (Option (BitVec 32))) : Statement (.incidentFetch l p) :=
  of_request rfl rfl (by decide) (fun _ h => kind_of_payload h)

theorem holdList (l : Link) (p : Payload Byte) : Statement (.holdList l p) :=
  of_request rfl rfl (by decide) (fun _ h => kind_of_payload h)

theorem limitsRead (l : Link) (p : Payload Byte) : Statement (.limitsRead l p) :=
  of_request rfl rfl (by decide) (fun _ h => kind_of_payload h)

theorem policyRead (l : Link) (p : Payload Byte) : Statement (.policyRead l p) :=
  of_request rfl rfl (by decide) (fun _ h => kind_of_payload h)

theorem archiveRead (l : Link) (p : Payload ArchiveReadArgs) : Statement (.archiveRead l p) :=
  of_request rfl rfl (by decide) (fun _ h => kind_of_payload h)

theorem captureRead (l : Link) (p : Payload Unit) : Statement (.captureRead l p) :=
  of_request rfl rfl (by decide) (fun _ h => kind_of_payload h)

theorem attentionSet (l : Link) (p : Payload AttentionSetArgs) : Statement (.attentionSet l p) :=
  of_request rfl rfl (by decide) (fun _ h => kind_of_payload h)

theorem attentionClear (l : Link) (p : Payload Byte) : Statement (.attentionClear l p) :=
  of_request rfl rfl (by decide) (fun _ h => kind_of_payload h)

theorem scheduleClaim (l : Link) (p : Payload Unit) : Statement (.scheduleClaim l p) :=
  of_request rfl rfl (by decide) (fun _ h => kind_of_payload h)

theorem scheduleYield (l : Link) (p : Payload Unit) : Statement (.scheduleYield l p) :=
  of_request rfl rfl (by decide) (fun _ h => kind_of_payload h)

theorem timeSync (l : Link) (p : Payload (BitVec 32)) : Statement (.timeSync l p) :=
  of_request rfl rfl (by decide) (fun _ h => kind_of_payload h)

theorem announce (l : Link) (p : Payload AnnounceArgs) : Statement (.announce l p) :=
  of_request rfl rfl (by decide) (fun _ h => kind_of_payload h)

theorem withdraw (l : Link) (p : Payload WithdrawArgs) : Statement (.withdraw l p) :=
  of_request rfl rfl (by decide) (fun _ h => kind_of_payload h)

theorem limitsWrite (l : Link) (p : Payload LimitsWriteArgs) : Statement (.limitsWrite l p) :=
  of_request rfl rfl (by decide) (fun _ h => kind_of_payload h)

theorem policyWrite (l : Link) (p : Payload PolicyWriteArgs) : Statement (.policyWrite l p) :=
  of_request rfl rfl (by decide) (fun _ h => kind_of_payload h)

theorem feedSet (l : Link) (p : Payload FeedSetArgs) : Statement (.feedSet l p) :=
  of_request rfl rfl (by decide) (fun _ h => kind_of_payload h)

theorem heartbeatSet (l : Link) (p : Payload (BitVec 16)) : Statement (.heartbeatSet l p) :=
  of_request rfl rfl (by decide) (fun _ h => kind_of_payload h)

theorem holdPlace (l : Link) (p : Payload HoldPlaceArgs) : Statement (.holdPlace l p) :=
  of_request rfl rfl (by decide) (fun _ h => kind_of_payload h)

theorem holdRelease (l : Link) (p : Payload HoldReleaseArgs) : Statement (.holdRelease l p) :=
  of_request rfl rfl (by decide) (fun _ h => kind_of_payload h)

theorem incidentReview (l : Link) (p : Payload IncidentReviewArgs) : Statement (.incidentReview l p) :=
  of_request rfl rfl (by decide) (fun _ h => kind_of_payload h)

theorem exportStart (l : Link) (p : Payload ExportStartArgs) : Statement (.exportStart l p) :=
  of_request rfl rfl (by decide) (fun _ h => kind_of_payload h)

theorem exportAbort (l : Link) (p : Payload (BitVec 32)) : Statement (.exportAbort l p) :=
  of_request rfl rfl (by decide) (fun _ h => kind_of_payload h)

theorem captureClear (l : Link) (p : Payload Unit) : Statement (.captureClear l p) :=
  of_request rfl rfl (by decide) (fun _ h => kind_of_payload h)

theorem measureRestart (l : Link) (p : Payload Unit) : Statement (.measureRestart l p) :=
  of_request rfl rfl (by decide) (fun _ h => kind_of_payload h)

theorem archiveMap (l : Link) (groups : List Byte) : Statement (.archiveMap l groups) :=
  of_request rfl rfl (by decide) (fun _ h => by cases h; rfl)

theorem archiveTest (l : Link) (p : Payload Unit) : Statement (.archiveTest l p) :=
  of_request rfl rfl (by decide) (fun _ h => kind_of_payload h)

theorem archiveRecord (l : Link) (p : Payload Unit) : Statement (.archiveRecord l p) :=
  of_request rfl rfl (by decide) (fun _ h => kind_of_payload h)

theorem archiveReset (l : Link) (p : Payload Unit) : Statement (.archiveReset l p) :=
  of_request rfl rfl (by decide) (fun _ h => kind_of_payload h)

theorem spareLaneSet (l : Link) (p : Payload SpareLaneSetArgs) : Statement (.spareLaneSet l p) :=
  of_request rfl rfl (by decide) (fun _ h => kind_of_payload h)

end Sys2Proof.Laws.KindByte
end

