-- ==== Sys2Proof/Tests/Slice0.lean ====
section
/-!
SUPPORT. Tests: ill-formed commands that `Instr.wellFormed` refuses; bytes that decode to commands; figures and worked sequences of spec/; and for every statement with
hypotheses a state and operands that meet them (`witness_…`), with boundary values where a statement has several clauses.
-/

namespace Sys2Proof.Tests

set_option Elab.async false

open Sys2Proof Sys2Proof.Machine

/-! ## Ill-formed commands -/

theorem test_wellFormed_packet : (Instr.captionPacket ⟨some 0, .clear, 256, []⟩).wellFormed = false := by decide +kernel

theorem test_wellFormed_timeout_words : (Instr.accessTimeout 1024 []).wellFormed = false := by decide +kernel

theorem test_wellFormed_wrong_offset : (Instr.scrubReadCompletion [(1024, 1)]).wellFormed = false := by decide +kernel

theorem test_wellFormed_wrong_twice : (Instr.exportReadCompletion [(3, 1), (3, 2)]).wellFormed = false := by decide +kernel

theorem test_wellFormed_wrong_test : (Instr.testAccessCompletion [(1024, 1)]).wellFormed = false := by decide +kernel

theorem test_wellFormed_no_bytes : (Instr.frameError 0 []).wellFormed = false := by decide +kernel

theorem test_wellFormed_listed_kind : (Instr.unknownRequest 0 47 []).wellFormed = false := by decide +kernel

theorem test_wellFormed_long_payload : (Instr.fetch 0 (List.replicate 249 0) 0).wellFormed = false := by decide +kernel

theorem test_wellFormed_long_list : (Instr.archiveMap 0 (List.replicate 249 0)).wellFormed = false := by decide +kernel

/-! ## From bytes to commands -/

/-- The table gives no row bits. -/
theorem test_decodeTableWord : decodeTableWord 8 0 = none := by decide +kernel

/-- R192: the CRC of "123456789". -/
theorem test_crc : crc16 [0x31, 0x32, 0x33, 0x34, 0x35, 0x36, 0x37, 0x38, 0x39] = 0x29B1 := by decide +kernel

/-- R192: a FETCH with no payload, and two bytes clocked after it. -/
theorem test_decode_fetch : decodeTransaction 2 [0x00, 0x00, 0x1D, 0x0F, 0x00, 0x00] = some (.fetch 2 [] 2) := by decide +kernel

/-- R191: one wrong CRC bit. -/
theorem test_decode_error : decodeTransaction 2 [0x00, 0x00, 0x1D, 0x0E] = some (.frameError 2 [0x00, 0x00, 0x1D, 0x0E]) := by decide +kernel

/-- R195, R197: TIME_SYNC (18) with station time 86,399,000, written out byte by byte. -/
theorem test_decode_timeSync :
    decodeTransaction 0 (withCrc [18, 4, 0x05, 0x26, 0x58, 0x18]) = some (.timeSync 0 (.fits 86399000)) := by decide +kernel

/-- R69, R197: ANNOUNCE (19): BREAK 77 on F0 and F7, station time 1,500, set 3, requirement tag eng. -/
theorem test_decode_announce :
    decodeTransaction 0 (withCrc [19, 15, 1, 0, 0, 0, 77, 0x81, 0, 0, 0x05, 0xDC, 3, 2, 101, 110, 103]) =
      some (.announce 0 (.fits ⟨1, 77, 0x81, 1500, 3, ⟨2, ⟨101, 110, 103⟩⟩⟩)) := by decide +kernel

/-- R96, R197: LIMITS_WRITE (32) of the worked sequence of chapter 5. -/
theorem test_decode_limitsWrite :
    decodeTransaction 1 (withCrc [32, 19, 3, 0xFF, 0x1A, 0, 10, 0, 70, 1, 0xFF, 0x88, 0, 20, 0xFD, 0xF8, 0, 5, 0x03, 0x84, 0]) =
      some (.limitsWrite 1 (.fits ⟨3, -230, 10, 70, some (-120), 20, -520, 5, 900, none⟩)) := by decide +kernel

/-- R125, R197: HOLD_PLACE (36) over ticks 5 to 2^40, reason 9. -/
theorem test_decode_holdPlace :
    decodeTransaction 1 (withCrc [36, 14, 0, 0, 0, 0, 0, 5, 1, 0, 0, 0, 0, 0, 0, 9]) = some (.holdPlace 1 (.fits ⟨5, 2 ^ 40, 9⟩)) := by
  decide +kernel

/-- R196, step 3: SEGMENT_READ (3) carries one byte or seven. -/
theorem test_decode_segmentRead :
    decodeTransaction 2 (withCrc [3, 1, 9]) = some (.segmentRead 2 (.fits ⟨9, none⟩)) ∧
    decodeTransaction 2 (withCrc [3, 7, 9, 0, 0, 0, 0, 1, 0]) = some (.segmentRead 2 (.fits ⟨9, some 256⟩)) ∧
    decodeTransaction 2 (withCrc [3, 2, 9, 0]) = some (.segmentRead 2 .wrongLength) := by decide +kernel

/-- R195: kind 13 is in no row. -/
theorem test_decode_unknown : decodeTransaction 2 (withCrc [13, 1, 7]) = some (.unknownRequest 2 13 [7]) := by decide +kernel

/-- R158, R168: ARCHIVE_MAP (43) of groups 2, 0, 3 and SPARE_LANE_SET (47) with a lane. -/
theorem test_decode_archive :
    decodeTransaction 1 (withCrc [43, 3, 2, 0, 3]) = some (.archiveMap 1 [2, 0, 3]) ∧
    decodeTransaction 1 (withCrc [47, 5, 2, 15, 1, 71, 0]) = some (.spareLaneSet 1 (.fits ⟨2, 15, some 71, 0⟩)) := by decide +kernel

/-! ## Figures of spec/ -/

/-- Chapter 2, "the first output of an impulse". -/
theorem test_impulse :
    weight ChannelFilter.zero 1000000 = (1438642, ⟨⟨1000000, 0, 1447128, 0⟩, ⟨1447128, 0, 1438642, 0⟩⟩) ∧
      energyTerm 1438642 = 129355675260 := by decide +kernel

/-- Chapter 2, "gating a short segment": L-values of the blocks. -/
theorem test_lv_blocks :
    lv 5764607523034235 = -230 ∧ lv 11529215046068470 = -200 ∧ lv 230584300921369 = -370 ∧ lv 11529215046 = -800 := by
  decide +kernel

/-- R21: Lv(0), Lv(Q), and a value of 8Q - 1. -/
theorem test_lv_ends : lv 0 = -999 ∧ lv (2 ^ 60) = 0 ∧ lv (2 ^ 63 - 1) = 90 := by decide +kernel

/-- Chapter 2, "gating a short segment": bins, and the gate figure of R22. -/
theorem test_bins : binOf (-230) = 94 ∧ binOf (-370) = 66 ∧ activeBlock 115292150461 = true ∧ activeBlock 115292150460 = false := by
  decide +kernel

/-- R60: d = 150, -150 and 151. -/
theorem test_nearestTick : nearestTick 150 = 1 ∧ nearestTick (-150) = -2 ∧ nearestTick 151 = 2 := by decide +kernel

/-- Chapter 4, "resolution across midnight". -/
theorem test_resolve :
    Anchor.resolve ⟨500000, 86399000⟩ 1500 = 500025 ∧ Anchor.resolve ⟨500000, 86399000⟩ 86390050 = 499910 := by decide +kernel

/-- R59: half a day. -/
theorem test_dayDifference : dayDifference 43200000 0 = -43200000 ∧ dayDifference 0 43200001 = 43199999 := by decide +kernel

/-- R139: the worked byte. -/
theorem test_compand : compand (-300000) = 178 := by decide +kernel

/-- Chapter 9: page 700,000 of a bank of groups 2, 0 and 3. -/
theorem test_page :
    ({ Ac.reset 0 with bank := [2, 0, 3] } : Ac).groupAt 700000 = some 0 ∧ 700000 % Config.groupPages = 175712 ∧
      175712 / Config.rowBlockPages = 5 := by decide +kernel

/-- R166, R167: a word reads clean; one wrong lane is corrected; two are not. -/
theorem test_ecc :
    (readLanes none (lanesOf none 0x0123456789ABCDEF)).outcome = .clean ∧
    readLanes none (lanesOf none 0x0123456789ABCDEF ^^^ 2#73) = ⟨0x85, .corrected, 0x0123456789ABCDEF⟩ ∧
    (readLanes none (lanesOf none 0x0123456789ABCDEF ^^^ 3#73)).outcome = .uncorrectable ∧
    (readLanes (some 1) (lanesOf (some 1) 0x0123456789ABCDEF ^^^ 2#73)).outcome = .clean := by decide +kernel

/-! ## States -/

/-- The part with an open tick. -/
def openAt (n : Nat) : State := { State.reset with fiu := { Fiu.reset with openTick := n } }

/-- L0 owns the schedule: an anchor, tick 110 handed over, one entry on F0. -/
def entry : Entry := ⟨.programme, 7, 0, .none, 36000000, 300, false⟩

/-- A state with an owner and an anchor. -/
def owned : State :=
  { State.reset with
    fiu := { Fiu.reset with openTick := 200, frontier := some 119 }
    su := { Su.reset with
      anchor := some ⟨199, 35989900⟩, owner := some 0, timer := 3, handed := some 119, lists := (Oct.fill []).set 0 [entry] } }

/-- The same with no anchor. -/
def ownedNoAnchor : State := { owned with su := { owned.su with anchor := none } }

/-- The last tick of a period: the open tick is complete. -/
def atClose (s : State) : State := { s with fiu := { s.fiu with periods := 4800 } }

/-- An archive that records on group 2. -/
def recording : State :=
  { State.reset with
    fiu := { Fiu.reset with openTick := 200 }
    ac := { Ac.reset 0 with state := .recording, bank := [2], groups := (Quad.fill ⟨.absent, 0, 0, false⟩).set 2 ⟨.healthy, 0, 0, false⟩ }
    ru := ⟨[], 1, 524288, 262144⟩
    rc := { Rc.reset with spans := [⟨100, 0, 50⟩], writePos := 50 } }

/-- The same with a bus access in progress. -/
def busy (k : AccessKind) : State := { recording with ac := { recording.ac with access := some ⟨k, 2, 60, false⟩ } }

/-- A page write of tick 199. -/
def pageWrite : PageWrite := ⟨199, List.replicate 8192 0, false⟩

/-- The read of tick 110 for F1 and F3. -/
def read110 : ReadRequest := ⟨110, 10, [1, 3]⟩

/-- A job over ticks 100 to 120 on F1 and F3. -/
def job (n : Nat) (p : Phase) : Job := ⟨n, 1, [1, 3], 100, 120, 0, 100, some 1, p, false, 0, 0, 0, 0⟩

/-- A segment record. -/
def segment (k : SegmentKind) (st : SegmentState) (t : Nat) : Segment where
  openTick := t
  feed := 0
  kind := k
  segmentId := some 7
  state := st
  latestMember := some t
  lastMember := none
  partCount := 1
  itemCount := 0
  orphanCount := 0
  enclosing := none
  limitIndex := 0
  limits := LimitSet.default
  requirement := .none
  loudness := none
  memberTicks := 1
  speechTicks := 0
  coveredTicks := 0
  wrongTicks := 0
  gapCount := 0
  longestGap := 0
  coverage := none
  deadAirRuns := 0
  flags := ⟨false, false, false, false, false, false, false, false⟩
  verdict := none
  closeSeq := none
  cause := none

/-- A part that has a tick of F0 to settle, with the given records and entries. -/
def settling (table : List (Nat × Segment)) (es : List Entry) : State :=
  { owned with sg := { Sg.reset with table := table, inbox := (Oct.fill []).set 0 [⟨119, es⟩] } }

/-- A settled record of tick `t` under a programme opened at tick 100. -/
def tickRecord (t b : Nat) : TickRecord := ⟨t, false, b, b, b, false, [], false, true, some ⟨⟨5, 100⟩, none, false, false⟩⟩

/-- A part with notices of tick 119 on F0. -/
def noticed (b : Nat) : State :=
  let n : Notice := ⟨119, ⟨⟨5, 100⟩, none, false, false⟩⟩
  { owned with
    fiu := { owned.fiu with history := (Oct.fill []).set 0 [tickRecord 116 b, tickRecord 117 b, tickRecord 118 b, tickRecord 119 b] }
    lm := { Lm.reset with programme := (Oct.fill Integrator.unbound).set 0 (Integrator.bound ⟨5, 100⟩) }
    sg := { Sg.reset with
      table := [(5, segment .programme .opened 100)], noticeLm := (Oct.fill none).set 0 (some n), noticeCc := (Oct.fill none).set 0 (some n) } }

/-- An incident record. -/
def incident (n : Nat) (hold : Option Nat) (reviewed : Bool) : Incident :=
  ⟨n, .deadAir, .fault, some 0, none, none, none, 110, 110, 110, none, none, .notRequested, hold, none, false, false, reviewed⟩

/-- A part with two incidents and the hold of the second. -/
def logged : State :=
  { recording with
    iu := { Iu.reset with log := [incident 2 none true, incident 4 (some 0) false], nextSerial := 5 }
    ru := { recording.ru with holds := [(0, ⟨1, .incident 4, 105, 115, 0⟩)], counter := 2 } }

/-- A report of dead air on F0. -/
def report : Report := ⟨.deadAir, some 0, none, none, none, 110, 108, 110, none, none, false⟩

/-! ## Witnesses: the machine as a whole -/

theorem witness_step_front : ({ State.reset with pending := [.heartbeatLapse] } : State).pending = .heartbeatLapse :: [] := by decide +kernel

theorem witness_step_idle : State.reset.pending = [] := by decide +kernel

theorem witness_next : exec .heartbeatLapse State.reset = .next State.reset := rfl

theorem witness_settlement_room :
    tableSorted (settling [] []).sg.table ∧ tableGet (settling [] []).sg.table 0 = none ∧
      tableGet (settling [] []).sg.table 127 = none := by decide +kernel

/-! ## Witnesses: Control Links -/

theorem witness_role_kept : exec (.laneLock 0) State.reset = .next State.reset := rfl

theorem witness_kind_listed : kindListed 47 = true ∧ (47 : Byte) ≠ 0 ∧ kindListed 48 = false ∧ kindListed 31 = false := by decide +kernel

theorem witness_unknown : requestRow 13 = none ∧ requestRow 15 = none ∧ requestRow 21 = none ∧ requestRow 31 = none ∧
    requestRow 48 = none ∧ requestRow 255 = none ∧ (List.replicate 248 (0 : Byte)).length ≤ 248 := by decide +kernel

theorem witness_role_refused : requestKind (.scheduleClaim 2 (.fits ())) = some (2, 16) ∧
    State.reset.li.resetHeld = false ∧ reachesKind (State.reset.li.links.get 2).role 16 = false := by decide +kernel

/-- R190, R201: the pin is held; every link keeps the role it has, and ALERT is released. -/
theorem witness_held :
    State.reset.hold.li.resetHeld = true ∧ (State.reset.hold.li.links.get 0).role = (State.reset.li.links.get 0).role ∧
      State.reset.hold.li.alertLine 0 = false ∧ requestKind (.fetch 0 [] 4) = none ∧
      requestKind (.status 0 (.fits ())) = some (0, 1) := by decide +kernel

theorem witness_length_refused :
    requestKind (.holdList 2 .wrongLength) = some (2, 6) ∧ State.reset.mayAsk 2 6 ∧ lengthFits (.holdList 2 .wrongLength) = false := by
  decide +kernel

theorem witness_passed :
    requestKind (.holdList 2 (.fits 63)) = some (2, 6) ∧ State.reset.mayAsk 2 6 ∧ lengthFits (.holdList 2 (.fits 63)) = true := by
  decide +kernel

theorem witness_frame_good : frameGood [0x00, 0x00, 0x1D, 0x0F] = true := by decide +kernel

theorem witness_frame_error_fetch : frameGood [0x00, 0x00, 0x1D, 0x0E, 0x00] = false := by decide +kernel

theorem witness_frame_error_short : frameGood [5] = false ∧ ([5] : List Byte) ≠ [] ∧ ([5] : List Byte).headD 0 ≠ 0 ∧
    frameGood [0] = false ∧ ([0] : List Byte) ≠ [] := by decide +kernel

theorem witness_reply :
    ({ State.reset with li := State.reset.li.passed 0 1 ⟨.ok, []⟩ } : State).li.replies = [] ++ ⟨0, 0, ⟨.ok, []⟩⟩ :: [] := by decide +kernel

theorem witness_attention_targets :
    attentionTarget 8 true (LinkState.reset .observer) =
      some { LinkState.reset .observer with enables := ⟨true, true, true, true, true, true, true⟩, master := true } ∧
    attentionTarget 9 true (LinkState.reset .observer) = none ∧ attentionAction 2 = none := by decide +kernel

theorem witness_status :
    State.reset.mayAsk 2 1 ∧ State.reset.su.lapseDue = false ∧ State.reset.xu.stallDue = false ∧ State.reset.fiu.openTick = 0 ∧
      (openAt 5).fiu.openTick = 4 + 1 ∧ owned.fiu.openTick = 199 + 1 ∧ owned.fiu.frontier = some 119 ∧ owned.su.owner = some 0 := by
  decide +kernel

theorem witness_encoded :
    (Instr.archiveMap 1 [2, 0]).wellFormed = true ∧ encodeRequest (.archiveMap 1 [2, 0]) = some (withCrc [43, 2, 2, 0]) := by decide +kernel

/-! ## Witnesses: station time and schedule authority -/

theorem witness_claim :
    State.reset.mayAsk 0 16 ∧ State.reset.su.lapseDue = false ∧ State.reset.su.owner = none ∧ owned.mayAsk 0 16 ∧
      owned.su.lapseDue = false ∧ owned.su.owner = some 0 := by decide +kernel

/-- L1 strapped scheduler and auditor meets an owner L0. -/
def secondScheduler : State := { owned with li := Li.reset ⟨.scheduler, .schedulerAuditor, .observer⟩ }

theorem witness_claim_other : secondScheduler.mayAsk 1 16 ∧ secondScheduler.su.lapseDue = false ∧ secondScheduler.su.owner = some 0 ∧
    (0 : Link) ≠ 1 := by decide +kernel

theorem witness_yield : owned.mayAsk 0 17 ∧ owned.su.owner = some 0 ∧ secondScheduler.mayAsk 1 17 ∧ secondScheduler.su.owner ≠ some 1 := by
  decide +kernel

theorem witness_timeSync :
    owned.mayAsk 0 18 ∧ owned.su.lapseDue = false ∧ owned.su.owner = some 0 ∧ (86399999#32).toNat < 86400000 ∧
      owned.fiu.openTick = 199 + 1 ∧ ownedNoAnchor.su.anchor = none := by decide +kernel

/-- R61: the refusals, from a link that is not the owner, at the end of the day, and before tick 0 has closed. -/
theorem witness_timeSync_refused :
    secondScheduler.mayAsk 1 18 ∧ secondScheduler.su.owner ≠ some 1 ∧ secondScheduler.su.lapseDue = false ∧
      86400000 ≤ (86400000#32).toNat ∧
      ({ owned with fiu := Fiu.reset } : State).fiu.openTick = 0 ∧ ({ owned with fiu := Fiu.reset } : State).su.owner = some 0 := by
  decide +kernel

theorem witness_timeSync_kept : dayDifference 35990100 (Anchor.project ⟨199, 35989900⟩ 199) = 200 := by decide +kernel

theorem witness_timeSync_stepped : dayDifference 35990101 (Anchor.project ⟨199, 35989900⟩ 199) = 201 := by decide +kernel

/-- Two entries of one level on F0, which a step of the time brings onto one tick (R63). -/
def steppedLists : State :=
  { owned with su := { owned.su with lists := (Oct.fill []).set 0 [{ entry with tick := 210, time := 35991000 }, entry] } }

theorem witness_step_survival :
    (steppedLists.su.lists.get 0).Pairwise (fun x y => x.rank < y.rank) ∧ entry ∈ steppedLists.su.lists.get 0 ∧
      steppedLists.su.handed = some 119 ∧ steppedLists.resolveTime ⟨199, 36010000⟩ 36000000 ≤ 119 ∧
      steppedLists.resolveTime ⟨199, 36010000⟩ 35991000 ≤ 119 ∧ steppedLists.resolveTime ⟨199, 36001000⟩ 36000000 = 189 := by decide +kernel

/-- An ANNOUNCE of ITEM 9 on F0 and F7. -/
def announceArgs (time : BitVec 32) : AnnounceArgs := ⟨3, 9, 0x81, time, 7, ⟨0, ⟨0, 0, 0⟩⟩⟩

theorem witness_announce :
    owned.mayAsk 0 19 ∧ owned.su.lapseDue = false ∧ owned.su.owner = some 0 ∧
      announcementOf (announceArgs 36000000) = some ⟨.item, 9, [0, 7], 36000000, 7, .none⟩ ∧
      owned.resolveTime ⟨199, 35989900⟩ 36000000 = 300 ∧ (300 : Int) < owned.fiu.openTick + 36000 := by decide +kernel

theorem witness_announce_entry :
    (Announcement.entry ⟨.item, 9, [0, 7], 36000000, 7, .none⟩ (some 119) 300).tick = 300 ∧
      (Announcement.entry ⟨.item, 9, [0, 7], 36000000, 7, .none⟩ (some 119) 119).tick = 120 ∧
      (Announcement.entry ⟨.item, 9, [0, 7], 36000000, 7, .none⟩ (some 119) 119).late = true ∧
      (owned.su.lists.get 0).length < 8 ∧ (owned.su.lists.get 7).length < 8 := by decide +kernel

/-- A resolved tick of -1: one tick before an anchor at tick 0. -/
theorem witness_announce_negative : owned.resolveTime ⟨0, 36000100⟩ 36000000 = -1 ∧ owned.su.handed = some 119 := by decide +kernel

theorem witness_announce_notOwner : secondScheduler.mayAsk 1 19 ∧ secondScheduler.su.owner ≠ some 1 := by decide +kernel

theorem witness_announce_bad :
    announcementOf { announceArgs 86400000 with kind := 4 } = none ∧ announcementOf { announceArgs 0 with kind := 5 } = none ∧
      announcementOf { announceArgs 0 with limitSet := 8 } = none ∧ announcementOf { announceArgs 0 with mask := 0 } = none ∧
      announcementOf { announceArgs 0 with requirement := ⟨2, ⟨65, 98, 99⟩⟩ } = none := by decide +kernel

theorem witness_announce_noTime : (announcementOf (announceArgs 0)).isSome ∧ ownedNoAnchor.su.anchor = none := by decide +kernel

theorem witness_announce_tooFar :
    (owned.fiu.openTick : Int) + 35999 < owned.resolveTime ⟨199, 35989900⟩ 39590050 ∧
      owned.resolveTime ⟨199, 35989900⟩ 39589950 = (owned.fiu.openTick : Int) + 35999 := by decide +kernel

/-- A full list on F7. -/
def fullList : State :=
  { owned with su := { owned.su with lists := (Oct.fill []).set 7 ((List.range 8).map (fun i => { entry with tick := 400 + i })) } }

theorem witness_announce_full :
    [0, 7].find? (fun f => overflows (fullList.su.lists.get f)
      (Announcement.entry ⟨.item, 9, [0, 7], 36000000, 7, .none⟩ (some 119) 300)) = some 7 := by decide +kernel

theorem witness_withdraw :
    owned.mayAsk 0 20 ∧ owned.su.owner = some 0 ∧ maskFeeds 1 = [0] ∧ announceKindOf 0 = some .programme ∧
      entry ∈ owned.su.lists.get 0 ∧ entry.segmentId = 7 ∧ entry.kind = .programme ∧ announceKindOf 5 = none ∧ maskFeeds 0 = [] := by
  decide +kernel

theorem witness_lapse : ({ owned with su := { owned.su with timer := 100, lapseDue := true } } : State).su.lapseDue = true := by decide +kernel

theorem witness_timer_stands : (atClose State.reset).fiu.periods = 4800 ∧ (atClose State.reset).su.lapseDue = false ∧
    (atClose State.reset).su.owner = none := by decide +kernel

theorem witness_heartbeat :
    State.reset.mayAsk 1 35 ∧ (atClose owned).fiu.periods = 4800 ∧ (atClose owned).su.lapseDue = false ∧
      (atClose owned).su.owner = some 0 ∧ State.reset.mayAsk 1 42 ∧ State.reset.mayAsk 1 46 := by decide +kernel

/-- R67 at the ends of its range. -/
theorem test_limitInRange :
    limitInRange 19 = 20 ∧ limitInRange 20 = 20 ∧ limitInRange 600 = 600 ∧ limitInRange 601 = 600 ∧ limitInRange 0xFFFF = 20 := by decide +kernel

theorem witness_schedule_order : listInOrder (owned.su.lists.get 0) ∧ listInOrder (fullList.su.lists.get 7) := by
  refine ⟨⟨by decide, by decide⟩, ⟨by decide, by decide⟩⟩

theorem witness_schedule_step : scheduleInOrder State.reset ∧ step State.reset = .next State.reset := by
  have he : ∀ f : Feed, State.reset.su.lists.get f = [] := by decide +kernel
  refine ⟨⟨⟨show 0 ≤ 0 + 80 by decide, fun _ => ⟨rfl, by decide +kernel⟩⟩, fun f => ?_⟩, rfl⟩
  rw [he f]
  exact ⟨⟨List.Pairwise.nil, by decide⟩, fun e h => absurd h List.not_mem_nil⟩

theorem witness_owner_role : ownerIsScheduler owned := by
  intro l hl
  have : l = 0 := by
    have h : owned.su.owner = some 0 := by decide +kernel
    rw [h] at hl
    exact (Option.some.inj hl).symm
  subst this
  decide

/-! ## Witnesses: feeds and ticks -/

/-- A valid frame with all samples zero. -/
def silence : Samples := ⟨0, 0, 0, 0, 0, 0⟩

/-- F0 about to lock, F1 locked. -/
def locking : State := { State.reset with fiu := { Fiu.reset with lanes := ((Oct.fill ⟨false, 0⟩).set 0 ⟨false, 47⟩).set 1 ⟨true, 48⟩ } }

theorem witness_period :
    locking.fiu.periods < 4800 ∧ (locking.fiu.lanes.get 0).locked = false ∧ (locking.fiu.lanes.get 0).run = 47 ∧
      (locking.fiu.lanes.get 1).locked = true ∧ (locking.fiu.lanes.get 2).run < 47 ∧ locking.fiu.heard.get 0 = false := by decide +kernel

/-- A heard feed: F1 locks on in stereo, and the sixth period of a group ends (R16 to R18, R138, R139). -/
theorem witness_heard :
    let s : State := { locking with fiu := { locking.fiu with periods := 5 } }
    (wordClock s (Oct.fill (some silence))).fiu.heard.get 1 = true ∧ (wordClock s (Oct.fill (some silence))).fiu.heard.get 2 = false ∧
      s.fiu.heard.get 1 = false ∧ (s.lm.energies.get 1)[1]? = some 0 ∧ (s.fiu.settings.get 1).layout = .stereo ∧
      (s.fiu.periods + 1) % 6 = 0 ∧ (locking.fiu.periods + 1) % 6 ≠ 0 := by decide +kernel

/-- R1: the 48th valid frame locks; R2: the tick of a lane that was not locked is broken. -/
theorem test_lock :
    ((wordClock locking (Oct.fill (some silence))).fiu.lanes.get 0) = ⟨true, 48⟩ ∧
      ((wordClock locking (Oct.fill (some silence))).fiu.lanes.get 2) = ⟨false, 1⟩ ∧
      (wordClock locking (Oct.fill none)).fiu.lanes.get 1 = ⟨false, 0⟩ ∧
      (wordClock locking (Oct.fill (some silence))).fiu.broken.get 0 = false ∧
      (wordClock locking (Oct.fill (some silence))).fiu.broken.get 2 = true := by decide +kernel

/-- F0 shows a caption of age 299, with a packet 50 ticks old. -/
def captioned : State :=
  { owned with
    fiu := { owned.fiu with periods := 4800 }
    cc := ⟨Cc.reset.feeds.set 0 { CaptionFeed.reset with state := .shown ⟨101, 110, 103⟩, age := 299, carriage := true, lastPacket := some 150 }⟩ }

theorem witness_stale : captioned.fiu.periods = 4800 ∧ (captioned.cc.feeds.get 0).state = .shown ⟨101, 110, 103⟩ ∧
    (captioned.cc.feeds.get 0).age = 299 := by decide +kernel

theorem witness_carriage : (captioned.cc.feeds.get 0).carriage = true ∧ (captioned.cc.feeds.get 0).lastPacket = some 150 ∧
    150 + 50 ≤ captioned.fiu.openTick := by decide +kernel

/-- R6: packets at the ends of the range, and bad ones. -/
theorem witness_packets :
    packetValid ⟨some 0, .show, 3, [101, 110, 103]⟩ = true ∧ packetValid ⟨some 0, .show, 2, [101, 110]⟩ = false ∧
      packetValid ⟨some 0, .show, 124, [101, 110, 103] ++ List.replicate 121 32⟩ = false ∧
      packetValid ⟨some 0, .show, 123, [101, 110, 103] ++ List.replicate 120 32⟩ = true ∧
      packetValid ⟨some 0, .show, 3, [69, 110, 103]⟩ = false ∧ packetValid ⟨some 0, .clear, 0, []⟩ = true ∧
      packetValid ⟨some 0, .keepalive, 1, [0]⟩ = false ∧ packetValid ⟨some 0, .other, 0, []⟩ = false := by decide +kernel

/-- R141: the bytes of each kind of event. -/
theorem test_event_bytes :
    eventBytes ⟨some 0, .show, 5, [101, 110, 103, 65, 66]⟩ = [1, 101, 110, 103, 2, 65, 66] ∧
      eventBytes ⟨some 0, .clear, 0, []⟩ = [2, 0] ∧ eventBytes ⟨some 0, .keepalive, 0, []⟩ = [3, 0] := by decide +kernel

/-- Chapter 8, "a crowded caption area": the six packets of F2. -/
theorem test_crowded :
    let cap (t : Tag) (n : Nat) : Packet := ⟨some 2, .show, n + 3, [t.a, t.b, t.c] ++ List.replicate n 65⟩
    let keep : Packet := ⟨some 2, .keepalive, 0, []⟩
    let b := ([cap ⟨101, 110, 103⟩ 60, keep, cap ⟨101, 110, 103⟩ 110, ⟨some 2, .clear, 0, []⟩, cap ⟨102, 114, 97⟩ 40, keep].foldl
      CaptionBuffer.take CaptionBuffer.fresh)
    b.events = 4 ∧ b.bytes.length = 184 ∧ b.truncated = true := by decide +kernel

theorem witness_feedSet :
    State.reset.mayAsk 1 34 ∧ (7 : Byte).toNat = (7 : Feed).val ∧ (2 : Byte).toNat = layoutPlace .surround ∧ (0 : Byte).toNat = false.toNat ∧
      feedOf 8 = none ∧ layoutOf 3 = none := by decide +kernel

theorem witness_close :
    (atClose owned).fiu.periods = 4800 ∧ (atClose owned).su.lapseDue = false ∧ (atClose owned).xu.stallDue = false ∧
      (atClose owned).fiu.baseTick ≤ (atClose owned).fiu.openTick ∧ (atClose owned).fiu.openTick = 120 + 80 := by decide +kernel

theorem witness_close_before_base :
    ({ atClose owned with fiu := { (atClose owned).fiu with baseTick := 201 } } : State).fiu.openTick < 201 := by decide +kernel

/-- R75: the close of tick 379 hands over the entry at 300; that of 380 does not. -/
theorem test_handOver :
    (({ owned with fiu := { owned.fiu with openTick := 380 } } : State).handOver 300).su.lists.get 0 = [] ∧
      (owned.handOver 299).su.lists.get 0 = [entry] ∧ (owned.handOver 300).su.recent = [(7, .programme)] := by decide +kernel

/-- R137: the first 16 header bytes of F0's chunk in a part that records. -/
theorem witness_page : (atClose recording).ac.state = .recording ∧
    (chunkHeader recording 0 200 none).take 14 = [0, 2, 0, 0, 0, 0, 0, 200, 0, 0, 0xFC, 0x19, 0, 0] := by decide +kernel

/-- R137: F0 with lane locked, carriage and a caption of tag eng; it is STEREO and enabled. -/
theorem test_header :
    let s : State := { recording with fiu := { recording.fiu with lanes := Oct.fill ⟨true, 48⟩ }, cc := captioned.cc }
    (chunkHeader s 0 200 none).take 2 = [0, 27] ∧ (chunkHeader s 0 200 none).drop 10 = [0xFC, 0x19, 101, 110, 103, 130] ++ List.replicate 16 0 := by
  decide +kernel

/-! ## Witnesses: segments and verdicts -/

theorem witness_first_settlement :
    (settling [] []).sg.inbox.get 0 = ⟨119, []⟩ :: [] ∧ (settling [] []).sg.noticeLm.get 0 = none ∧
      (settling [] []).sg.noticeCc.get 0 = none ∧ tableGet (settling [] []).sg.table 0 = none := by decide +kernel

/-- A BREAK as the first entry of a feed (R84), and a full table whose record of the smallest close sequence is that in slot 5 (R80). -/
def fullTable : State :=
  settling ((List.range 128).map (fun i =>
    (i, { segment .programme .closed 1 with feed := 3, verdict := some .done, closeSeq := some (if i = 5 then 1 else i + 2) }))) []

theorem witness_first_entry :
    (settling [] [{ entry with tick := 119 }]).sg.inbox.get 0 = ⟨119, [{ entry with tick := 119 }]⟩ :: [] ∧ entry.limitSet < 8 ∧
      entry.kind = .programme := by decide +kernel

theorem witness_first_full :
    tableSorted fullTable.sg.table ∧ (∀ x ∈ fullTable.sg.table, x.2.feed ≠ 0) ∧
      (∀ j, j < 128 → tableGet fullTable.sg.table j ≠ none) ∧
      (tableGet fullTable.sg.table 5).map (fun x => (x.state, x.verdict, x.closeSeq)) = some (.closed, some .done, some 1) ∧
      (∀ x ∈ fullTable.sg.table, x.1 ≠ 5 → 1 < x.2.closeSeq.getD 0) := by decide +kernel

/-- A BREAK at the tick to be settled, over an open programme. -/
def breaking : State := settling [(0, segment .programme .opened 100)] [⟨.adBreak, 8, 0, .none, 0, 119, false⟩]

/-- Its return. -/
def returning : State :=
  settling [(0, segment .programme .suspended 100), (1, segment .adBreak .opened 110)] [⟨.programme, 7, 0, .none, 0, 119, true⟩]

theorem witness_break :
    tableSorted breaking.sg.table ∧ tableGet breaking.sg.table 0 = some (segment .programme .opened 100) ∧
      tableGet breaking.sg.table 1 = none ∧ breaking.sg.inbox.get 0 = ⟨119, [⟨.adBreak, 8, 0, .none, 0, 119, false⟩]⟩ :: [] := by decide +kernel

theorem witness_resume :
    tableSorted returning.sg.table ∧ tableGet returning.sg.table 0 = some (segment .programme .suspended 100) ∧
      (segment .programme .suspended 100).segmentId = some 7 ∧ tableGet returning.sg.table 1 = some (segment .adBreak .opened 110) := by
  decide +kernel

/-- R85, R86: the programme is suspended, then resumed with LATE_START. -/
theorem test_break_resume :
    ((settleTick breaking 0 ⟨119, [⟨.adBreak, 8, 0, .none, 0, 119, false⟩]⟩ []).bind (fun t => tableGet t.sg.table 0)).map (·.state) =
        some .suspended ∧
      ((settleTick returning 0 ⟨119, [⟨.programme, 7, 0, .none, 0, 119, true⟩]⟩ []).bind (fun t => tableGet t.sg.table 0)).map
        (fun r => (r.state, r.partCount, r.flags.lateStart)) = some (.opened, 2, true) := by decide +kernel

/-- An OPEN item within an OPEN BREAK over a SUSPENDED programme, with entries at the tick to be settled. -/
def stacked (es : List Entry) : State :=
  settling [(0, segment .programme .suspended 100), (1, segment .adBreak .opened 110), (2, segment .item .opened 112)] es

/-- The entries of R85 to R88 at that tick. -/
def atTick (k : AnnounceKind) (id : Nat) : Entry := ⟨k, id, 0, .none, 0, 119, false⟩

theorem witness_closing :
    tableSorted (stacked [atTick .ending 9]).sg.table ∧ tableGet (stacked []).sg.table 1 = some (segment .adBreak .opened 110) ∧
      (2, segment .item .opened 112) ∈ (stacked []).sg.table ∧ (0, segment .programme .suspended 100) ∈ (stacked []).sg.table ∧
      tableGet (stacked []).sg.table 3 = none ∧ (∀ j, j < 3 → tableGet (stacked []).sg.table j ≠ none) ∧
      (∀ x ∈ (stacked []).sg.table, x.2.feed = 0 → x.2.verdict ≠ some .pending) ∧
      (segment .programme .suspended 100).segmentId ≠ some (atTick .programme 9).segmentId ∧
      (segment .adBreak .opened 110).openTick ≠ 119 := by decide +kernel

/-- R83, R85: END closes item, BREAK and programme in that order; a BREAK leaves the programme SUSPENDED. -/
theorem test_closing :
    ((settleTick (stacked [atTick .ending 9]) 0 ⟨119, [atTick .ending 9]⟩ []).map
      (fun t => [2, 1, 0].map (fun i => ((tableGet t.sg.table i).bind (·.closeSeq))))) = some [some 1, some 2, some 3] ∧
    ((settleTick (stacked [atTick .adBreak 9]) 0 ⟨119, [atTick .adBreak 9]⟩ []).map
      (fun t => [2, 1, 0].map (fun i => ((tableGet t.sg.table i).bind (·.closeSeq))))) = some [some 1, some 2, none] := by decide +kernel

theorem witness_due (es : List Entry) : settlementDue (stacked es) 0 119 es [] :=
  ⟨rfl, rfl, rfl, by show tableSorted (stacked []).sg.table; decide +kernel, by
    show ∀ x ∈ (stacked []).sg.table, x.2.feed = 0 → x.2.verdict ≠ some .pending
    decide +kernel⟩

theorem witness_onAir (es : List Entry) :
    onAir (stacked es) 0 1 (segment .adBreak .opened 110) (some (2, segment .item .opened 112)) := by
  show onAir (stacked []) 0 1 (segment .adBreak .opened 110) (some (2, segment .item .opened 112))
  refine ⟨by decide +kernel, rfl, rfl, by decide, ?_, by decide +kernel⟩
  rintro x hx
  cases hx
  decide +kernel

theorem witness_suspended (es : List Entry) : suspendedIs (stacked es) 0 (some (0, segment .programme .suspended 100)) := by
  show suspendedIs (stacked []) 0 (some (0, segment .programme .suspended 100))
  refine ⟨?_, by decide +kernel⟩
  rintro x hx
  cases hx
  decide +kernel

theorem witness_slots : lowestFreeSlot (stacked []).sg.table 0 3 ∧ lowestFreeSlot (stacked []).sg.table 4 4 :=
  ⟨⟨by decide, by decide, rfl, by decide +kernel⟩, ⟨by decide, by decide, rfl, by decide +kernel⟩⟩

/-- A programme on air: its own ID again is no boundary (R85). -/
theorem witness_onAir_programme (es : List Entry) :
    onAir (settling [(0, segment .programme .opened 100)] es) 0 0 (segment .programme .opened 100) none ∧
      (segment .programme .opened 100).segmentId = some (atTick .programme 7).segmentId ∧
      suspendedIs (settling [(0, segment .programme .opened 100)] es) 0 none := by
  refine ⟨?_, by decide, ?_⟩
  · show onAir (settling [(0, segment .programme .opened 100)] []) 0 0 (segment .programme .opened 100) none
    exact ⟨by decide +kernel, rfl, rfl, by decide, (fun x hx => nomatch hx), by decide +kernel⟩
  · show suspendedIs (settling [(0, segment .programme .opened 100)] []) 0 none
    exact ⟨(fun x hx => nomatch hx), by decide +kernel⟩

/-- Every feed but F0 has settled tick 119, or none has settled a tick (R9, R10). -/
theorem test_frontier :
    let s := { stacked [] with fiu := { (stacked []).fiu with settledTo := (Oct.fill (some 119)).set 0 (some 118), frontier := some 118 } }
    (settleTick s 0 ⟨119, []⟩ []).map (·.fiu.frontier) = some (some 119) ∧
      (settleTick (stacked []) 0 ⟨119, []⟩ []).map (·.fiu.frontier) = some none := by decide +kernel

/-- R83, R88: an ITEM at the tick of a BREAK opens within that break; at the tick of a resuming PROGRAMME it is an orphan. -/
theorem test_two_entries :
    ((settleTick (stacked []) 0 ⟨119, [atTick .adBreak 9, atTick .item 10]⟩ []).bind (fun t => tableGet t.sg.table 4)).map
        (fun r => (r.kind, r.enclosing)) = some (.item, some ⟨3, 119⟩) ∧
      ((settleTick (stacked []) 0 ⟨119, [atTick .programme 7, atTick .item 10]⟩ []).bind (fun t => tableGet t.sg.table 0)).map
        (fun r => (r.partCount, r.orphanCount)) = some (2, 1) := by decide +kernel

/-- R87: an ITEM within no BREAK is an orphan. -/
theorem witness_orphan :
    tableGet (settling [(0, segment .programme .opened 100)] [atTick .item 9]).sg.table 0 = some (segment .programme .opened 100) ∧
      tableGet (settling [(0, segment .programme .opened 100)] [atTick .item 9]).sg.table 1 = none ∧
      (segment .programme .opened 100).openTick ≠ 119 ∧
      (stacked [atTick .itemEnd 9]).sg.inbox.get 0 = ⟨119, [atTick .itemEnd 9]⟩ :: [] := by decide +kernel

theorem witness_meter_notice :
    (noticed 115292150461).sg.noticeLm.get 0 = some ⟨119, ⟨⟨5, 100⟩, none, false, false⟩⟩ ∧
      recordAt ((noticed 115292150461).fiu.history.get 0) 119 = some (tickRecord 119 115292150461) ∧
      ((noticed 115292150461).lm.programme.get 0).binding = some ⟨5, 100⟩ ∧
      (List.range 4).all (fun k => memberAt ((noticed 115292150461).fiu.history.get 0) false ⟨5, 100⟩ (119 - k)) = true := by decide +kernel

/-- R28, R22: a block at the gate is active, one below it is not. -/
theorem test_credit :
    ((Integrator.unbound.creditBlock 115292150461).active, (Integrator.unbound.creditBlock 115292150461).bins.map (·.1)) = (1, [0]) ∧
      (Integrator.unbound.creditBlock 115292150460).active = 0 := by decide +kernel

/-- A part with notices of tick 129 on F0, thirty ticks into item 6 within BREAK 5; the item owes subtitles in English and its gap stands at the limit less one. -/
def itemNoticed (b : Nat) (shown : Bool) : State :=
  let m : Membership := ⟨⟨5, 100⟩, some ⟨6, 100⟩, false, false⟩
  let n : Notice := ⟨129, m⟩
  { owned with
    fiu := { owned.fiu with
      history := (Oct.fill []).set 0 ((List.range 30).map (fun i => ⟨100 + i, false, b, b, b, shown, [], false, false, some m⟩)) }
    lm := { Lm.reset with item := (Oct.fill Integrator.unbound).set 0 (Integrator.bound ⟨6, 100⟩) }
    cc := ⟨Cc.reset.feeds.set 0 { CaptionFeed.reset with previous := some ⟨6, 100⟩, gap := 99, gapStart := some 30 }⟩
    sg := { Sg.reset with
      table := [(5, segment .adBreak .opened 100), (6, { segment .item .opened 100 with requirement := .tag ⟨101, 110, 103⟩ })]
      noticeLm := (Oct.fill none).set 0 (some n), noticeCc := (Oct.fill none).set 0 (some n) } }

theorem witness_item_notice :
    (((itemNoticed 115292150461 false).sg.noticeLm.get 0).bind (·.membership.level2)) = some ⟨6, 100⟩ ∧
      ((itemNoticed 115292150461 false).lm.item.get 0).binding = some ⟨6, 100⟩ ∧
      ((itemNoticed 115292150461 false).lm.programme.get 0).binding ≠ some ⟨5, 100⟩ ∧
      (recordAt ((itemNoticed 115292150461 false).fiu.history.get 0) 129).isSome = true ∧
      (List.range 30).all (fun k => memberAt ((itemNoticed 115292150461 false).fiu.history.get 0) true ⟨6, 100⟩ (129 - k)) = true := by
  decide +kernel

/-- R31 to R33: chapter 2's figures of a silent segment, and of one block at -230. -/
theorem test_results :
    Integrator.unbound.results.silent = true ∧ Integrator.unbound.results.integrated = none ∧
      (Integrator.unbound.creditBlock 5764607523034235).results.integrated = some (-230) ∧
      (Integrator.unbound.creditBlock 5764607523034235).results.passing = 1 := by decide +kernel

theorem witness_caption_notice :
    (noticed 0).sg.noticeCc.get 0 = some ⟨119, ⟨⟨5, 100⟩, none, false, false⟩⟩ ∧
      tableGet (noticed 0).sg.table 5 = some (segment .programme .opened 100) ∧ tableSorted (noticed 0).sg.table ∧
      (segment .programme .opened 100).requirement = .none ∧ (segment .programme .opened 100).limits.deadAir ≠ some 0 ∧
      recordAt ((noticed 0).fiu.history.get 0) 119 = some (tickRecord 119 0) := by decide +kernel

/-- The gap is reached and the carriage is lost: speech at tick 129, no caption, no carriage (R47, R50, R51). -/
theorem witness_subtitles :
    let s := itemNoticed (2 ^ 60) false
    ((s.sg.noticeCc.get 0).bind (·.membership.level2)) = some ⟨6, 100⟩ ∧
      (tableGet s.sg.table 6).map (fun e => (e.requirement, e.limits.maxGap)) = some (.tag ⟨101, 110, 103⟩, 100) ∧
      (s.cc.feeds.get 0).gap + 1 = 100 ∧ (s.cc.feeds.get 0).gapReported = false ∧
      (recordAt (s.fiu.history.get 0) 129).map (fun r => (r.stale, r.shownTags, r.carriage)) = some (false, [], false) ∧
      tableSorted s.sg.table ∧ (6 : Nat) ≠ 5 := by decide +kernel

/-- R47, R50, R51: the reports, in watch order. -/
theorem test_subtitles :
    (match exec (.settledTickNoticeCc 0) (itemNoticed (2 ^ 60) false) with
     | .next t => t.iu.reports.map (fun r => (r.kind, r.measured, r.limit))
     | _ => []) = [(.subtitleGap, some 100, some 100), (.carriageLost, none, none)] := by decide +kernel

/-- R44: a notice whose handle matches no record. -/
theorem witness_notice_dropped :
    let s := { noticed 0 with sg := { (noticed 0).sg with table := [(5, segment .programme .opened 101)] } }
    s.sg.noticeCc.get 0 = some ⟨119, ⟨⟨5, 100⟩, none, false, false⟩⟩ ∧ (tableGet s.sg.table 5).map (·.openTick) = some 101 := by
  decide +kernel

/-- A closed record with results, waiting for its verdict. -/
def pendingSegment : Segment :=
  { segment .programme .closed 100 with
    loudness := some ⟨60, 60, 55, -180, some (-190), some (-200), false⟩, verdict := some .pending, closeSeq := some 1 }

/-- A part whose VERDICT is due on F0. -/
def judging : State := { owned with sg := { Sg.reset with table := [(3, pendingSegment)], closeSeq := 1 } }

theorem witness_verdict :
    judging.sg.noticeLm.get 0 = none ∧ judging.sg.noticeCc.get 0 = none ∧ tableSorted judging.sg.table ∧
      tableGet judging.sg.table 3 = some pendingSegment ∧ pendingSegment.verdict = some .pending := by decide +kernel

/-- R92: -200 lies above -230 + 10; the record is LOUDNESS_HIGH and nothing else. -/
theorem test_verdict :
    judgeFlags pendingSegment = ⟨true, false, false, false, false, false, false, false⟩ ∧
      (verdictReports 119 (3, pendingSegment.judged)).map (fun r => (r.kind, r.measured, r.limit)) =
        [(.loudnessHigh, some (-200), some (-220))] := by decide +kernel

/-- A BREAK and a record of too few active blocks wait beside it (R92): three PENDING records, their close sequences rising. -/
def judgingThree : List (Nat × Segment) :=
  [(3, pendingSegment), (1, { segment .adBreak .closed 100 with verdict := some .pending, closeSeq := some 2 }),
   (2, { pendingSegment with kind := .item, loudness := some ⟨60, 49, 40, -180, none, some (-400), false⟩, closeSeq := some 3 })]

theorem witness_verdict_three :
    let s := { owned with
      fiu := { owned.fiu with settledTo := (Oct.fill none).set 0 (some 119) }
      sg := { Sg.reset with table := [(1, judgingThree[1].2), (2, judgingThree[2].2), (3, pendingSegment)], closeSeq := 3 } }
    tableSorted s.sg.table ∧ (∀ e ∈ judgingThree, e ∈ s.sg.table) ∧ (∀ e ∈ s.sg.table, e ∈ judgingThree) ∧
      judgingThree.map (·.2.closeSeq) = [some 1, some 2, some 3] ∧ s.fiu.settledTo.get 0 = some 119 ∧
      s.sg.noticeLm.get 0 = none ∧ s.sg.noticeCc.get 0 = none := by decide +kernel

/-- R92: a BREAK is not judged; 49 active blocks of 50 are TOO_SHORT. -/
theorem test_verdict_three :
    judgingThree.map (fun e => (judgeFlags e.2).tooShort) = [false, false, true] ∧
      judgingThree.map (fun e => (judgeFlags e.2).any) = [true, false, true] := by decide +kernel

theorem witness_limits :
    State.reset.mayAsk 1 32 ∧ State.reset.mayAsk 2 7 ∧ limitIndexOf 7 = some 7 ∧ limitIndexOf 8 = none := by decide +kernel

/-- Chapter 5, "a write with clamping". -/
theorem test_limits :
    limitsInForce ⟨3, -230, 10, 70, some (-120), 20, -520, 5, 900, none⟩ = ⟨-230, 10, 50, some (-120), 20, -520, 10, 900, none⟩ ∧
      limitsUnchanged ⟨3, -230, 10, 70, some (-120), 20, -520, 5, 900, none⟩ = false := by decide +kernel

theorem witness_segment_reads :
    State.reset.mayAsk 2 2 ∧ State.reset.mayAsk 2 3 ∧ State.reset.mayAsk 2 4 ∧ feedOf 8 = none ∧
      tableGet judging.sg.table 3 = some pendingSegment ∧ tableGet judging.sg.table 127 = none ∧ (maskFeeds 1 = [0]) := by decide +kernel

/-- METER with an effective segment at F (R36): a level-2 handle whose slot holds its record, and a slot used again. -/
theorem witness_meter :
    let s := { itemNoticed 0 false with fiu := { (itemNoticed 0 false).fiu with frontier := some 129 } }
    (recordAt (s.fiu.history.get 0) 129).bind (·.membership) = some ⟨⟨5, 100⟩, some ⟨6, 100⟩, false, false⟩ ∧
      (tableGet s.sg.table 6).map (·.openTick) = some 100 ∧
      (tableGet [(6, segment .item .opened 101)] 6).map (·.openTick) ≠ some 100 ∧ owned.fiu.history.get 0 = [] := by decide +kernel

/-- SEGMENT_READ of an OPEN item whose integrator is bound to it, and of a closed record (R30). -/
theorem witness_segment_read :
    ((itemNoticed 0 false).lm.item.get 0).binding = some ⟨6, 100⟩ ∧ (6 : Byte).toNat = 6 ∧
      (tableGet (itemNoticed 0 false).sg.table 6).map (fun e => (e.state, e.kind)) = some (.opened, .item) ∧
      pendingSegment.state = .closed ∧ pendingSegment.loudness.isSome = true := by decide +kernel

/-- Twelve and one DONE records with a PENDING one before the last, and one OPEN; F0's ACTIVE list. -/
def listing : State :=
  { owned with sg := { Sg.reset with
      table := (0, segment .programme .opened 100) :: (List.range 14).map (fun i => (i + 1, { segment .programme .closed (10 + i) with
        verdict := some (if i = 12 then .pending else .done), closeSeq := some (i + 1) }))
      closeSeq := 14 } }

theorem witness_segment_list :
    tableSorted listing.sg.table ∧
      (∀ e ∈ listing.sg.table, e.2.feed ∈ maskFeeds 1) ∧ maskFeeds (1 : Byte) ≠ [] ∧
      (match exec (.segmentList 2 (.fits ⟨1, 1, some 1⟩)) listing with
       | .next t => t.li.replies.map (fun r => (r.reply.status, r.reply.fields.head?, r.reply.fields.getLast?))
       | _ => []) = [(.ok, some (.byte 11), some (.choice true))] ∧
      (match exec (.segmentList 2 (.fits ⟨1, 0, none⟩)) listing with
       | .next t => t.li.replies.map (fun r => (r.reply.status, r.reply.fields.head?, r.reply.fields.getLast?))
       | _ => []) = [(.ok, some (.byte 1), some (.byte 0))] := by decide +kernel

/-! ## Witnesses: incidents -/

theorem witness_policy :
    State.reset.mayAsk 1 33 ∧ State.reset.iu.policy.length = 12 ∧ State.reset.mayAsk 2 8 ∧ incidentKindOf 12 = none ∧ modeOf 3 = none ∧
      autoHoldOf 2 = none ∧ State.reset.iu.policy[11]? = some ⟨.fault, 50, 50, false⟩ := by decide +kernel

/-- R105: rolls at the ends of their range. -/
theorem test_rolls : rollInRange 600 = 600 ∧ rollInRange 601 = 600 ∧ rollInRange 0xFFFF = 0 ∧ rollKept 601 = false := by decide +kernel

/-- Two reports wait. -/
def reported : State := { logged with iu := { logged.iu with reports := [report, { report with kind := .timeStep }] } }

theorem witness_report :
    reported.iu.reports = [] ++ report :: [{ report with kind := .timeStep }] ∧
      reported.iu.policy[IncidentKind.deadAir.place]? = some ⟨.fault, 50, 50, true⟩ ∧ reported.iu.log.length < 256 := by decide +kernel

/-- The same with dead air muted. -/
def muted : State := { reported with iu := { reported.iu with policy := defaultPolicy.set 6 ⟨.muted, 0, 0, false⟩ } }

theorem witness_report_muted : muted.iu.policy[IncidentKind.deadAir.place]? = some ⟨.muted, 0, 0, false⟩ := by decide +kernel

/-- A full log, all reviewed or not. -/
def fullLog (reviewed : Bool) : State :=
  { reported with
    iu := { reported.iu with log := (List.range 256).map (fun i => incident (i + 1) none reviewed), nextSerial := 257 } }

theorem witness_report_full : (fullLog true).iu.log.length = 256 ∧ (fullLog false).iu.log.length = 256 := by decide +kernel

theorem witness_log_order : logInOrder (fullLog true) := by
  refine ⟨?_, by decide +kernel, ?_, by decide +kernel⟩
  · show ((List.range 256).map (fun i => incident (i + 1) none true)).Pairwise (fun a b => a.serial < b.serial)
    rw [List.pairwise_map]
    exact (List.pairwise_lt_range (n := 256)).imp (fun h => Nat.succ_lt_succ h)
  · intro x hx
    obtain ⟨i, hi, rfl⟩ := List.mem_map.mp hx
    exact Nat.succ_lt_succ (List.mem_range.mp hi)

/-- R108 to R110: dead air at ticks 108 to 110 asks for a hold of ticks 58 to 160, clamped at tick 100. -/
theorem test_autoHold :
    autoHold logged ⟨.fault, 50, 50, true⟩ 5 report = .placed 1 ⟨2, .incident 5, 100, 160, 0⟩ true := by decide +kernel

/-- R111: a report of dead air in a segment whose schedule is unconfirmed. -/
theorem witness_unconfirmed :
    let e := { segment .programme .opened 100 with flags := ⟨false, false, false, false, false, false, false, true⟩ }
    let r := { report with handle := some ⟨5, 100⟩ }
    tableGet [(5, e)] 5 = some e ∧ e.openTick = 100 ∧ e.flags.scheduleUnconfirmed = true ∧ r.kind = .deadAir ∧
      { report with kind := .lateBoundary, unconfirmed := true }.unconfirmed = true := by decide +kernel

theorem witness_fetch :
    logged.mayAsk 2 5 ∧ logged.iu.cursors.get 2 = 1 ∧ (5#32).toNat ≤ logged.iu.nextSerial ∧ logged.iu.nextSerial < (6#32).toNat ∧
      skippedCount logged.iu.log 5 1 = 2 ∧ fetched logged.iu.log 5 = [] := by decide +kernel

theorem witness_log_small : logInOrder logged := by
  exact ⟨by decide, by decide, by decide, by decide⟩

theorem witness_review :
    logged.mayAsk 1 38 ∧ (1 : Byte).toNat = true.toNat ∧ incident 2 none true ∈ logged.iu.log ∧
      incident 4 (some 0) false ∈ logged.iu.log ∧ tableGet logged.ru.holds 0 = some ⟨1, .incident 4, 105, 115, 0⟩ ∧
      logged.iu.nextSerial ≤ (5#32).toNat ∧ (∀ x ∈ logged.iu.log, x.serial ≠ 3) := by decide +kernel

theorem witness_incidents_whole : incidentsKeptWhole logged := by
  refine ⟨witness_log_small, ⟨by decide, by decide⟩, ?_, ?_⟩
  · intro x hx i hi
    have : x = incident 2 none true ∨ x = incident 4 (some 0) false := by simpa [logged] using hx
    rcases this with rfl | rfl
    · cases hi
    · cases hi
      exact ⟨⟨1, .incident 4, 105, 115, 0⟩, by decide, by decide⟩
  · intro i h n hi ho
    have : (i, h) ∈ logged.ru.holds := by
      have h0 : i = 0 ∧ h = ⟨1, .incident 4, 105, 115, 0⟩ := by
        by_cases hi0 : i = 0
        · subst hi0
          exact ⟨rfl, (Option.some.inj hi).symm⟩
        · exfalso
          have : tableGet logged.ru.holds i = none := if_neg (fun h => hi0 h.symm)
          rw [this] at hi
          cases hi
      rw [h0.1, h0.2]
      decide
    have h1 : i = 0 ∧ h = ⟨1, .incident 4, 105, 115, 0⟩ := by simpa [logged] using this
    obtain ⟨rfl, rfl⟩ := h1
    cases ho
    exact ⟨incident 4 (some 0) false, by decide, by decide, by decide⟩

/-! ## Witnesses: retention holds -/

theorem witness_holdPlace :
    recording.mayAsk 1 36 ∧ recording.retentionFloor = 100 ∧ recording.ac.state = .recording ∧ recording.ru.quota = 262144 ∧
      tableGet recording.ru.holds 0 = none := by decide +kernel

/-- R125: each refusal in turn, at its boundary, and a placement that is clamped. -/
theorem test_placements :
    judgePlacement recording (.link 1) 120 119 0 = .refused .badArgument ∧
      judgePlacement State.reset (.link 1) 100 120 0 = .refused .wrongState ∧
      judgePlacement recording (.link 1) 1 99 0 = .refused .notFound ∧
      judgePlacement recording (.link 1) 100 36200 0 = .refused .tooFar ∧
      judgePlacement recording (.link 1) 99 36199 4 = .placed 0 ⟨1, .link 1, 100, 36199, 4⟩ true ∧
      judgePlacement { recording with ru := { recording.ru with quota := 20 } } (.link 1) 100 120 0 = .refused .quota ∧
      judgePlacement { recording with ru := { recording.ru with quota := 21 } } (.link 1) 100 120 0 =
        .placed 0 ⟨1, .link 1, 100, 120, 0⟩ false := by decide +kernel

/-- A full Hold Table. -/
def fullHolds : State :=
  { recording with ru := { recording.ru with holds := (List.range 64).map (fun i => (i, ⟨i + 1, .link 1, 100, 100, 0⟩)), counter := 65 } }

theorem witness_holds_full : judgePlacement fullHolds (.link 1) 100 100 0 = .refused .full := by decide +kernel

/-- R108, R109, R111: each outcome of the hold. -/
theorem witness_auto_hold :
    110 + 50 ≤ logged.fiu.openTick + 35999 ∧ report.subjectFirst ≤ report.subjectLast ∧
      autoHold State.reset ⟨.fault, 50, 50, true⟩ 5 report = .refused .wrongState ∧
      autoHold logged ⟨.fault, 0, 0, true⟩ 5 { report with subjectFirst := 90, subjectLast := 99 } = .refused .notFound ∧
      autoHold { logged with ru := { logged.ru with quota := 71 } } ⟨.fault, 50, 50, true⟩ 5 report = .refused .quota ∧
      autoHold fullHolds ⟨.fault, 0, 0, true⟩ 5 report = .refused .full ∧
      autoHold logged ⟨.fault, 8, 0, true⟩ 5 report = .placed 1 ⟨2, .incident 5, 100, 110, 0⟩ false := by decide +kernel

theorem witness_holdRelease :
    logged.mayAsk 1 37 ∧ tableGet logged.ru.holds 0 = some ⟨1, .incident 4, 105, 115, 0⟩ ∧ tableGet logged.ru.holds 63 = none ∧
      tableGet fullHolds.ru.holds 63 = some ⟨64, .link 1, 100, 100, 0⟩ ∧ logged.mayAsk 2 6 := by decide +kernel

theorem witness_hold_job :
    tableGet [((0 : Nat), (⟨1, .job 3, 100, 120, 0⟩ : Hold))] 0 = some ⟨1, .job 3, 100, 120, 0⟩ := by decide +kernel

/-- R134: more than eight holds from index 50 on, eight from 56 on. -/
theorem witness_hold_list :
    ((fullHolds.ru.holds.filter (fun e => decide ((50 : Byte).toNat ≤ e.1))).length, nextHoldIndex fullHolds.ru.holds 50) = (14, some 58) ∧
      ((fullHolds.ru.holds.filter (fun e => decide ((56 : Byte).toNat ≤ e.1))).length, nextHoldIndex fullHolds.ru.holds 56) = (8, none) := by
  decide +kernel

theorem witness_holds_order : holdsInOrder logged := ⟨by decide, by decide⟩

/-! ## Witnesses: recording and archive memory -/

/-- The bus is free and a page write waits. -/
def writing : State := { recording with rc := { recording.rc with writes := [pageWrite] } }

theorem witness_grant : writing.ac.access = none ∧ writing.rc.writes = pageWrite :: [] := ⟨rfl, rfl⟩

/-- R144: from page 50 the search finds page 50; a held tick is passed over. -/
theorem test_search :
    searchFrom (fun p => decide (p ≠ 50)) 50 100 100 = some 51 ∧ searchFrom (fun p => decide (p < 3)) 50 100 100 = some 0 ∧
      searchFrom (fun _ => false) 50 100 100 = none := by decide +kernel

/-- A span over pages 48 to 52: the write position's page 50 is written and its span split (R145); ticks 0 to 47 are held. -/
def overwriting (spans : List Span) (holds : List (Nat × Hold)) : State :=
  { writing with rc := { writing.rc with spans := spans, writePos := 50 }, ru := { writing.ru with holds := holds } }

/-- 512 or 513 spans of one tick each on pages 100 on, with the span of five pages before or behind them. -/
def manySpans (n : Nat) : List Span := ⟨100, 48, 5⟩ :: (List.range n).map (fun i => ⟨200 + 2 * i, 100 + 2 * i, 1⟩)

theorem witness_grant_first :
    (overwriting [⟨100, 48, 5⟩] []).searchPage = some 50 ∧ evict [⟨100, 48, 5⟩] 50 = [⟨100, 48, 2⟩, ⟨103, 51, 2⟩] ∧
      willGrow [⟨100, 48, 2⟩, ⟨103, 51, 2⟩] 199 50 = false ∧ (overwriting [] []).searchPage = some 50 := by decide +kernel

/-- R147: one over: the oldest span goes; two over, with the second part held: the step is undone. -/
theorem witness_room :
    (evict (manySpans 510) 50).length + 1 = 513 ∧
      (roomFor [] false 513 (evict (manySpans 510) 50) []).dropped = [⟨100, 48, 2⟩] ∧
      (evict (manySpans 511) 50).length + 1 = 514 ∧
      (roomFor [(0, ⟨1, .link 1, 103, 5000, 0⟩)] false 514 (evict (manySpans 511) 50) []).dropped = [⟨100, 48, 2⟩] ∧
      (roomFor [(0, ⟨1, .link 1, 103, 5000, 0⟩)] false 514 (evict (manySpans 511) 50) []).enough = false ∧
      (roomFor [(0, ⟨1, .link 1, 100, 5000, 0⟩)] false 513 (evict (manySpans 510) 50) []).enough = false ∧
      isHeld [(0, ⟨1, .link 1, 103, 5000, 0⟩)] 102 = false := by decide +kernel

/-- No page is writable: the mapped group is FAULTED. -/
theorem witness_no_page :
    let ac := { writing.ac with groups := writing.ac.groups.set 2 ⟨.faulted, 0, 0, false⟩ }
    ac.bank = [2] ∧ (ac.groups.get 2).state ≠ .healthy ∧ writing.ac.access = none ∧ writing.rc.writes = pageWrite :: [] :=
  ⟨rfl, by decide +kernel, rfl, rfl⟩

theorem witness_completion :
    (busy (.record pageWrite 60)).ac.access = some ⟨.record pageWrite 60, 2, 60, false⟩ ∧
      recording.rc.spans = [⟨100, 0, 50⟩] := ⟨rfl, rfl⟩

/-- R146: tick 150 on page 50 grows the span; tick 199 on page 60 starts one. R145: the eviction of a tick splits it. -/
theorem test_spans :
    joinTick recording.rc.spans 150 50 = [⟨100, 0, 51⟩] ∧ joinTick recording.rc.spans 199 60 = [⟨100, 0, 50⟩, ⟨199, 60, 1⟩] ∧
      evict recording.rc.spans 10 = [⟨100, 0, 10⟩, ⟨111, 11, 39⟩] ∧ evict recording.rc.spans 0 = [⟨101, 1, 49⟩] := by decide +kernel

theorem witness_archive_requests :
    recording.mayAsk 1 43 ∧ recording.mayAsk 1 44 ∧ recording.mayAsk 1 45 ∧ recording.mayAsk 1 47 ∧ groupsOf [3, 0] = some [3, 0] ∧
      groupsOf [4] = none ∧ groupsOf [1, 1] = none ∧ groupsOf [] = none ∧ groupsOf [0, 1, 2, 3, 0] = none := by decide +kernel

/-- The archive states that accept a test and a recording. -/
theorem witness_archive_states :
    ({ recording with ac := { recording.ac with state := .mapped } } : State).ac.state = .mapped ∧
      ({ recording with ac := { recording.ac with state := .tested } } : State).ac.state = .tested := by decide +kernel

/-- R168: lane 72 is stored as none, lane 73 is refused. -/
theorem test_spare :
    spareEntryOf ⟨0, 15, some 72, 1⟩ = some ⟨none, true⟩ ∧ spareEntryOf ⟨0, 15, some 73, 1⟩ = none ∧
      spareEntryOf ⟨0, 15, some 71, 0⟩ = some ⟨some 71, false⟩ := by decide +kernel

theorem witness_archive_reset :
    recording.mayAsk 1 46 ∧ recording.xu.stallDue = false ∧ recording.ac.state ≠ .unmapped ∧ State.reset.ac.state = .unmapped ∧
      recording.xu.jobs = [] := by decide +kernel

/-- SUMMARY's parts: a test position, and a write that was not abandoned (R176). -/
theorem witness_archive_summary :
    ({ State.reset with ac := { Ac.reset 0 with state := .testing, test := some ⟨1, 7, true⟩ } } : State).ac.test = some ⟨1, 7, true⟩ ∧
      (busy (.record pageWrite 60)).ac.access = some ⟨.record pageWrite 60, 2, 60, false⟩ ∧
      ({ recording with ac := { recording.ac with capture := some ⟨2, 60, 5, 0x85, .corrected, .scrubRead⟩ } } : State).ac.capture =
        some ⟨2, 60, 5, 0x85, .corrected, .scrubRead⟩ := ⟨rfl, rfl, rfl⟩

theorem witness_archive_reads :
    recording.mayAsk 2 10 ∧ recording.mayAsk 1 41 ∧ recording.mayAsk 2 9 ∧ (sectionFields recording 1 511).isSome = true ∧
      sectionFields recording 1 512 = none ∧ sectionFields recording 0 1 = none ∧ sectionFields recording 2 64 = none ∧
      sectionFields recording 3 4 = none ∧ sectionFields recording 4 0 = none ∧
      (sectionFields recording 2 63).isSome = true := by decide +kernel

theorem witness_timeout :
    (busy (.record pageWrite 60)).ac.state = .recording ∧ pageWrite.retry = false ∧ (1023 : Nat) < 1024 ∧
      (busy (.record pageWrite 60)).ac.capture = none := by decide +kernel

theorem witness_timeout_abandoned :
    ({ recording with ac := { recording.ac with access := some ⟨.scrub read110, 2, 10, true⟩ } } : State).ac.access =
      some ⟨.scrub read110, 2, 10, true⟩ := by decide +kernel

/-- The other accesses that end in TIMEOUT: a retried write, an export read within its second chunk, a scrub read, a test access. -/
theorem witness_timeouts :
    (busy (.record { pageWrite with retry := true } 60)).ac.state = .recording ∧
      (busy (.exportRead read110)).ac.access = some ⟨.exportRead read110, 2, 60, false⟩ ∧ read110.chunks.Nodup ∧
      (200 : Nat) < 128 * read110.chunks.length ∧ read110.chunks[200 / 128]? = some 3 ∧
      (busy (.scrub read110)).ac.access = some ⟨.scrub read110, 2, 60, false⟩ ∧ (0 : Nat) < 1024 := by decide +kernel

/-- A scrub read that times out after a first word with two wrong lanes, and one of which no word was received (R165, R169). -/
theorem witness_timeout_errors :
    let s : State := { busy (.scrub read110) with ac := (busy (.scrub read110)).ac.writeWords 2 60 1 [0x0123456789ABCDEF] }
    s.ac.access = some ⟨.scrub read110, 2, 60, false⟩ ∧ (1 : Nat) < (List.range 1024).length ∧ (List.range 1024).take 1 = [] ++ 0 :: [] ∧
      (s.ac.readWord 2 60 0 [(0, 3#73)]).outcome = .uncorrectable ∧ s.ac.capture = none ∧ storedTick s.rc.spans read110.page = some 110 ∧
      (List.range 1024).take 0 = [] ∧ (List.range 1024)[0]? = some 0 := by decide +kernel

/-- The abandoned page write of ARCHIVE_RESET. -/
theorem witness_abandoned_write :
    ({ busy (.record pageWrite 60) with ac := (busy (.record pageWrite 60)).ac.archiveReset } : State).ac.access =
      some ⟨.record pageWrite 60, 2, 60, true⟩ := rfl

/-- A scrub read waits for the bus. -/
def scrubbing : State := { recording with ac := { recording.ac with scrubRequest := some ⟨110, 10, allFeeds⟩ } }

theorem witness_scrub_grant :
    scrubbing.ac.access = none ∧ scrubbing.rc.writes = [] ∧ scrubbing.ac.exportRequest = none ∧ scrubbing.ac.bank[10 / 524288]? = some 2 ∧
      pageOf scrubbing.rc.spans 110 = some 10 ∧ (scrubbing.ac.groups.get 2).state ≠ .faulted := by decide +kernel

/-- A bank whose word 0 of page 60 of group 2 holds a codeword. -/
theorem witness_scrub_clean :
    ((busy (.scrub ⟨160, 60, allFeeds⟩)).ac.writeWords 2 60 1 [0x0123456789ABCDEF]).readWord 2 60 0 [] =
      ⟨0, .clean, 0x0123456789ABCDEF⟩ := by decide +kernel

/-- Holds at entries 3, 5 and 9 of a part whose pages 0 to 49 store ticks 100 to 149. -/
def scrubHolds : List (Nat × Hold) :=
  [(3, ⟨4, .link 1, 100, 101, 0⟩), (5, ⟨6, .link 1, 120, 160, 0⟩), (9, ⟨10, .link 1, 90, 99, 0⟩)]

/-- The same at a close, with a scrub cursor. -/
def scrubClose (c : Option ScrubCursor) : State :=
  { recording with
    fiu := { recording.fiu with periods := 4800 }
    ru := { recording.ru with holds := scrubHolds }
    ac := { recording.ac with scrub := c } }

/-- R173: no cursor; a cursor within its hold; a cursor past the present ticks of its hold; a cursor whose hold is gone. -/
theorem witness_scrub_choice :
    (scrubClose none).scrubChoice.ac.scrubRequest = some ⟨100, 0, allFeeds⟩ ∧
      (scrubClose (some ⟨5, 6, 130⟩)).scrubChoice.ac.scrubRequest = some ⟨130, 30, allFeeds⟩ ∧
      (scrubClose (some ⟨5, 6, 150⟩)).scrubChoice.ac.scrub = some ⟨3, 4, 101⟩ ∧
      (scrubClose (some ⟨5, 7, 130⟩)).scrubChoice.ac.scrub = some ⟨3, 4, 101⟩ ∧
      (scrubClose (some ⟨4, 5, 130⟩)).scrubChoice.ac.scrub = some ⟨5, 6, 121⟩ ∧
      (scrubClose none).ac.scrubRequest = none ∧ (scrubClose none).ac.access = none ∧ (scrubClose none).xu.stallDue = false := by
  decide +kernel

/-- A scrub read of page 10 with one wrong lane in word 0 and two in word 130, all else written clean. -/
theorem witness_scrub_errors :
    let ac := (busy (.scrub ⟨110, 10, allFeeds⟩)).ac.writeWords 2 10 131 (List.replicate 131 0x0123456789ABCDEF)
    (ac.readWord 2 10 0 [(0, 2#73), (130, 3#73)]).outcome = .corrected ∧
      (ac.readWord 2 10 129 [(0, 2#73), (130, 3#73)]).outcome = .clean ∧
      (ac.readWord 2 10 130 [(0, 2#73), (130, 3#73)]).outcome = .uncorrectable ∧
      storedTick recording.rc.spans 10 = some 110 ∧ (1 : Feed).val = 130 / 128 ∧ isHeld scrubHolds 120 = true ∧
      isHeld scrubHolds 110 = false ∧ recording.ac.damaged = [] := by decide +kernel

/-- An archive under test. -/
def testing (reading : Bool) : State :=
  { recording with ac := { recording.ac with state := .testing, test := some ⟨0, 524287, reading⟩, testRequest := true } }

theorem witness_test :
    (testing false).ac.testRequest = true ∧ (testing true).ac.test = some ⟨0, 524287, true⟩ ∧ (testing true).ac.bank[0]? = some 2 := by
  decide +kernel

/-- A test read of the last page whose words all hold the pattern, and one with a wrong pattern in word 0 (R160, R161). -/
theorem witness_test_read :
    let ac := (testing true).ac.writeWords 2 524287 2 [testWord 524287 0, testWord 524287 0]
    (ac.readWord 2 524287 0 []).data = testWord 524287 0 ∧ (ac.readWord 2 524287 0 []).outcome = .clean ∧
      (ac.readWord 2 524287 1 []).data ≠ testWord 524287 1 ∧
      (∀ b : TestPosition, b = ⟨0, 524287, true⟩ → 524288 ≤ b.page + 1 ∧ (testing true).ac.bank.length ≤ b.slot + 1) ∧
      (testing true).ac.state = .testing := by
  refine ⟨by decide +kernel, by decide +kernel, by decide +kernel, ?_, by decide +kernel⟩
  rintro _ rfl
  decide +kernel

/-- R160: the pattern of word 1,023 of page 1. -/
theorem test_pattern : testWord 1 1023 = 0x000007FFFFFFF800 := by decide +kernel

/-- R170: a wrong lane in word 0 of the last page is corrected, and word 1 differs from the pattern. -/
theorem witness_test_counts :
    let ac := (testing true).ac.writeWords 2 524287 2 [testWord 524287 0, testWord 524287 0]
    (ac.readWord 2 524287 0 [(0, 2#73)]).outcome = .corrected ∧ (ac.readWord 2 524287 0 [(0, 2#73)]).data = testWord 524287 0 ∧
      (ac.readWord 2 524287 1 [(0, 2#73)]).outcome = .clean ∧ (ac.readWord 2 524287 1 [(0, 2#73)]).data ≠ testWord 524287 1 ∧
      (ac.spareOf 2 524287).quiet = false ∧ ac.capture = none := by decide +kernel

/-- R167, R168: a wrong lane 72 stands for the substituted lane 1, whose own bit is disregarded. -/
theorem test_substituted :
    readLanes (some 1) (lanesOf (some 1) 0x0123456789ABCDEF ^^^ 0x1000000000000000000#73) = ⟨0x85, .corrected, 0x0123456789ABCDEF⟩ ∧
      (readLanes (some 1) (lanesOf (some 1) 0x0123456789ABCDEF ^^^ 1#73 ^^^ 0x1000000000000000000#73)).outcome = .uncorrectable := by
  decide +kernel

theorem witness_substitution : ∀ k, (some 71 : Option Nat) = some k → k < 72 := by
  intro k hk
  cases hk
  decide

theorem witness_bookkeeping : archiveBookkeeping recording := ⟨by decide, by decide, by decide⟩

theorem witness_restart : owned.mayAsk 1 42 ∧ owned.su.lapseDue = false ∧ owned.su.owner.isSome = true := by decide +kernel

/-! ## Witnesses: evidence export -/

/-- Two jobs, the first sending. -/
def exporting : State :=
  { recording with
    ru := { recording.ru with holds := [(0, ⟨1, .job 1, 100, 120, 0⟩)], counter := 2 }
    xu := { Xu.reset with
      jobs := [job 1 .sending, job 2 .queued], counter := 3, buffer := [(1, .absent), (3, .absent)], xd := 0, unsent := [0, 1], stallTimer := 49 } }

theorem witness_export_start :
    exporting.mayAsk 1 39 ∧ exporting.xu.stallDue = false ∧ exporting.ac.state = .recording ∧ exporting.xu.jobs.length < 4 ∧
      firstPresent exporting.rc.spans 90 120 = some 100 ∧ lastPresent exporting.rc.spans 90 120 = some 120 ∧
      exporting.retentionFloor = 100 ∧ tableGet exporting.ru.holds 1 = none := by decide +kernel

theorem witness_export_nothing :
    firstPresent exporting.rc.spans 150 160 = none ∧ (∀ x ∈ exporting.rc.spans, 0 < x.length) ∧ State.reset.ac.state ≠ .recording := by decide +kernel

theorem witness_export_abort :
    exporting.mayAsk 1 40 ∧ exporting.xu.jobs = [job 1 .sending, job 2 .queued] ∧ (job 1 .sending).abort = false ∧
      (∀ j ∈ exporting.xu.jobs, j.number ≠ (3#32).toNat) ∧
      tableGet exporting.ru.holds (job 1 .sending).pin = some ⟨1, .job 1, 100, 120, 0⟩ := by decide +kernel

/-- The jobs that ARCHIVE_RESET meets (R186): a SENDING head with jobs behind it, and a READING one. -/
theorem witness_reset_jobs :
    exporting.mayAsk 1 46 ∧ exporting.xu.stallDue = false ∧ exporting.ac.state ≠ .unmapped ∧ (exporting.xu.jobs.map (·.number)).Nodup ∧
      exporting.xu.jobs = job 1 .sending :: [job 2 .queued] ∧ (job 1 .reading).phase ≠ .sending ∧ (job 1 .reading).phase ≠ .ending := by
  decide +kernel

/-- The refusals behind NOT_FOUND (R179): four jobs; a quota of 12 with 21 committed; a full Hold Table. -/
theorem witness_export_refused :
    ({ exporting with xu := { exporting.xu with jobs := [job 1 .sending, job 2 .queued, job 3 .queued, job 4 .queued] } } : State).xu.jobs.length = 4 ∧
      (12 : Nat) < (exporting.ru.holds.map (fun e => e.2.last - e.2.first + 1)).sum + (120 - 100 + 1) ∧
      (∀ j, j < 64 → tableGet fullHolds.ru.holds j ≠ none) ∧ firstPresent fullHolds.rc.spans 90 120 = some 100 ∧
      (fullHolds.ru.holds.map (fun e => e.2.last - e.2.first + 1)).sum + (120 - 100 + 1) ≤ fullHolds.ru.quota ∧
      fullHolds.xu.jobs.length < 4 := by decide +kernel

/-- An empty queue, with the page of tick 100 in a HEALTHY group or in a FAULTED one. -/
theorem witness_export_first :
    recording.xu.jobs = [] ∧ pageOf recording.rc.spans 100 = some 0 ∧ recording.ac.bank[0 / 524288]? = some 2 ∧
      (recording.ac.groups.get 2).state = .healthy ∧ tableGet recording.ru.holds 0 = none ∧
      ((recording.ac.groups.set 2 ⟨.faulted, 0, 0, false⟩).get 2).state = .faulted := by decide +kernel

/-- An export read waits. -/
def reading : State :=
  { recording with ac := { recording.ac with exportRequest := some read110 }, xu := { Xu.reset with jobs := [job 1 .reading], counter := 2 } }

theorem witness_export_grant :
    reading.ac.access = none ∧ reading.rc.writes = [] ∧ reading.ac.exportRequest = some read110 ∧ reading.ac.bank[10 / 524288]? = some 2 ∧
      (reading.ac.groups.get 2).state ≠ .faulted ∧ read110.chunks = 1 :: [3] ∧ (job 1 .reading).abort = false := by decide +kernel

/-- Aborts of a READING job: before its read is granted, and while it is on the bus; and of the second of three jobs. -/
theorem witness_abort_reading :
    reading.ac.exportRequest ≠ none ∧ reading.xu.jobs = job 1 .reading :: [] ∧
      ({ reading with ac := { reading.ac with exportRequest := none } } : State).ac.exportRequest = none ∧
      (∀ j ∈ [job 1 .sending] ++ [job 3 .queued], j.number ≠ (job 2 .queued).number) ∧ reading.mayAsk 1 40 := by decide +kernel

/-- The group has FAULTED before the grant (R181). -/
theorem witness_export_grant_faulted :
    let s := { reading with ac := { reading.ac with groups := reading.ac.groups.set 2 ⟨.faulted, 0, 0, false⟩ } }
    s.ac.access = none ∧ s.rc.writes = [] ∧ s.ac.exportRequest = some read110 ∧ s.ac.bank[10 / 524288]? = some 2 ∧
      (s.ac.groups.get 2).state = .faulted ∧ (job 1 .reading).mask = 1 :: [3] := by decide +kernel

/-- R183, R184: the first word of a record, the strobe at 49 and the stall at 50. -/
theorem witness_strobe :
    exporting.xu.unsent = 0 :: 1 :: [] ∧ exporting.xu.stallTimer < 50 ∧
      ({ exporting.xu with stallTimer := 50 } : Xu).stallDue = true ∧
      portWords (beBytes 4 0x01020304) = [0x0102, 0x0304] := by decide +kernel

/-- R184: closes at which a word waits, at the timer's last value before the stall, and one at which none does. -/
theorem witness_stall_timer :
    (atClose exporting).fiu.periods = 4800 ∧ (atClose exporting).su.lapseDue = false ∧ (atClose exporting).xu.stallDue = false ∧
      (atClose exporting).xu.unsent ≠ [] ∧ (exporting.xu.timerAtClose true).stallTimer = 50 ∧
      (exporting.xu.timerAtClose false).stallTimer = 0 ∧ ({ exporting.xu with unsent := [] } : Xu).stallDue = false := by decide +kernel

/-- The last word of a record of tick `t`, with the chunks that follow in the buffer. -/
def lastWord (t : Nat) (abort : Bool) (more : List (Feed × Buffered)) : State :=
  { exporting with xu := { exporting.xu with
      jobs := [{ job 1 .sending with tick := t, abort := abort }], buffer := (1, .chunk .damaged []) :: more, unsent := [7] } }

theorem witness_last_word :
    (lastWord 120 false []).xu.unsent = [7] ∧ (lastWord 120 false []).xu.stallTimer < 50 ∧
      (lastWord 119 false [(3, .absent)]).xu.buffer = (1, .chunk .damaged []) :: [(3, .absent)] ∧
      pageOf exporting.rc.spans 120 = some 20 ∧ pageOf exporting.rc.spans 150 = none ∧
      (job 1 .sending).last = 120 ∧ (exporting.ac.groups.get 2).state ≠ .faulted := by decide +kernel

/-- R182, R187: the next record; the next tick's read; DONE; ABORTED. -/
theorem test_last_word :
    (strobe (lastWord 119 false [(3, .absent)]) []).xu.unsent = [0, 1, 0, 0, 119, 0x0308, 0, 1] ∧
      (strobe (lastWord 119 false []) []).ac.exportRequest = some ⟨120, 20, [1, 3]⟩ ∧
      (strobe (lastWord 120 false []) []).xu.endings.get 1 = some ⟨1, .done, 1, 1, 0, 0⟩ ∧
      (strobe (lastWord 119 true [(3, .absent)]) []).xu.endings.get 1 = some ⟨1, .aborted, 1, 1, 0, 0⟩ := by decide +kernel

/-- One job, stalled. -/
def stalled : State := { exporting with xu := { exporting.xu with jobs := [job 1 .sending], unsent := [0], stallTimer := 50 } }

theorem witness_stall :
    stalled.xu.unsent = 0 :: [] ∧ stalled.xu.stallTimer = 50 ∧ stalled.xu.jobs = [job 1 .sending] ∧ (job 1 .sending).phase = .sending := by
  decide +kernel

/-- A stall, and the last word of a job in ENDING, with a job behind: it is looked up at a page, at no page, and in a FAULTED group. -/
theorem witness_stall_behind :
    let s := { stalled with xu := { stalled.xu with jobs := [job 1 .ending, job 2 .queued] } }
    s.xu.jobs = job 1 .ending :: [job 2 .queued] ∧ s.xu.unsent = 0 :: [] ∧ s.xu.stallTimer = 50 ∧
      (∀ x ∈ [job 2 .queued], x.number ≠ (job 1 .ending).number) ∧ pageOf s.rc.spans (job 2 .queued).first = some 0 ∧
      pageOf ([] : List Span) 100 = none ∧ tableGet s.ru.holds (job 1 .ending).pin = some ⟨1, .job 1, 100, 120, 0⟩ ∧
      (s.stall.xu.endings.get 1).map (·.status) = some .aborted ∧ s.stall.ac.exportRequest = some ⟨100, 0, [1, 3]⟩ := by decide +kernel

/-- An export read of page 10 whose words 128 on are F1's: word 128 wrong in one lane, word 384, of F3's chunk, in two (R169 to R171, R175). -/
theorem witness_export_errors :
    let ac := (busy (.exportRead read110)).ac.writeWords 2 60 385 (List.replicate 385 0x0123456789ABCDEF)
    (ac.readWord 2 60 128 [(128, 2#73), (384, 3#73)]).outcome = .corrected ∧
      (ac.readWord 2 60 383 [(128, 2#73), (384, 3#73)]).outcome = .clean ∧
      (ac.readWord 2 60 384 [(128, 2#73), (384, 3#73)]).outcome = .uncorrectable ∧
      storedTick recording.rc.spans read110.page = some 110 ∧ (3 : Feed).val = 384 / 128 ∧ read110.chunks.Nodup ∧
      (ac.spareOf 2 60).quiet = false ∧ ac.capture = none ∧ ac.damaged = [] ∧ (job 1 .reading).abort = false := by decide +kernel

/-- R184, R187: it ends STALLED and its pin is released. -/
theorem test_stall : stalled.stall.xu.jobs = [] ∧ stalled.stall.ru.holds = [] ∧
    stalled.stall.xu.endings.get 1 = some ⟨1, .stalled, 0, 0, 0, 0⟩ := by decide +kernel

end Sys2Proof.Tests
end

section

namespace Sys2Proof.Proofs.Loudness

open Sys2Proof Sys2Proof.Machine

/-!
# The L-value (R21)

`lv` searches for the last level whose bound is reached; the comparison it searches with is antitone in the level, so the search decides it exactly.
-/

/-- A binary search with enough fuel ends between its bounds, and the places it passes are those where the test holds. -/
theorem searchLast_spec {test : Nat → Bool} (anti : ∀ m n, m ≤ n → test n = true → test m = true) (fuel : Nat) :
    ∀ lo hi, lo < hi → hi - lo ≤ 2 ^ fuel →
      lo ≤ searchLast test fuel lo hi ∧ searchLast test fuel lo hi < hi ∧
        ∀ n, lo < n → n < hi → (n ≤ searchLast test fuel lo hi ↔ test n = true) := by
  induction fuel with
  | zero =>
    intro lo hi hlt hw
    refine ⟨le_refl _, hlt, fun n hn hn' => ?_⟩
    simp only [pow_zero] at hw
    omega
  | succ fuel ih =>
    intro lo hi hlt hw
    rw [pow_succ] at hw
    unfold searchLast
    split
    · exact ⟨le_refl _, hlt, fun n hn hn' => by omega⟩
    · rename_i hwide
      split
      · rename_i hmid
        obtain ⟨hlo, hhi, hspec⟩ := ih ((lo + hi) / 2) hi (by omega) (by omega)
        refine ⟨by omega, hhi, fun n hn hn' => ?_⟩
        by_cases hm : (lo + hi) / 2 < n
        · exact hspec n hm hn'
        · exact ⟨fun _ => anti n _ (Nat.le_of_not_lt hm) hmid, fun _ => by omega⟩
      · rename_i hmid
        obtain ⟨hlo, hhi, hspec⟩ := ih lo ((lo + hi) / 2) (by omega) (by omega)
        refine ⟨hlo, by omega, fun n hn hn' => ?_⟩
        by_cases hm : n < (lo + hi) / 2
        · exact hspec n hn hm
        · exact ⟨fun _ => by omega, fun ht => absurd (anti _ n (Nat.le_of_not_lt hm) ht) hmid⟩

theorem lvAtLeast_of_pos (E : Nat) {k : Nat} (hk : 1 ≤ k) :
    lvAtLeast E k = true ↔ Config.energyReference ^ 200 * 10 ^ (2 * k - 1) ≤ E ^ 200 := by
  have hexp : ((2 * (k : Int) - 1)).toNat = 2 * k - 1 := by omega
  simp only [lvAtLeast]
  rw [if_pos (by omega), decide_eq_true_iff, hexp]

theorem lvAtLeast_of_nonpos (E k : Nat) :
    lvAtLeast E (-(k : Int)) = true ↔ Config.energyReference ^ 200 ≤ E ^ 200 * 10 ^ (2 * k + 1) := by
  have hexp : (-(2 * -(k : Int) - 1)).toNat = 2 * k + 1 := by omega
  simp only [lvAtLeast]
  rw [if_neg (by omega), decide_eq_true_iff, hexp]

/-- An energy that reaches a bound reaches the next lower one. -/
theorem lvAtLeast_pred {E : Nat} {k : Int} (h : lvAtLeast E (k + 1) = true) : lvAtLeast E k = true := by
  rcases lt_trichotomy k 0 with hneg | rfl | hpos
  · obtain ⟨n, rfl⟩ : ∃ n : Nat, k = -((n + 1 : Nat) : Int) := ⟨(-k).toNat - 1, by omega⟩
    rw [show -((n + 1 : Nat) : Int) + 1 = -(n : Int) by omega, lvAtLeast_of_nonpos] at h
    rw [lvAtLeast_of_nonpos]
    exact h.trans (Nat.mul_le_mul_left _ (Nat.pow_le_pow_right (by decide) (by omega)))
  · have h1 := (lvAtLeast_of_pos E (le_refl 1)).mp h
    refine (lvAtLeast_of_nonpos E 0).mpr ?_
    exact (Nat.le_mul_of_pos_right _ (Nat.pow_pos (by decide))).trans
      (h1.trans (Nat.le_mul_of_pos_right _ (Nat.pow_pos (by decide))))
  · obtain ⟨n, rfl⟩ : ∃ n : Nat, k = (n : Int) := ⟨k.toNat, by omega⟩
    have h1 := (lvAtLeast_of_pos E (k := n + 1) (by omega)).mp h
    refine (lvAtLeast_of_pos E (by omega)).mpr (le_trans ?_ h1)
    exact Nat.mul_le_mul_left _ (Nat.pow_le_pow_right (by decide) (by omega))

/-- The comparison of R21 is antitone in the level. -/
theorem lvAtLeast_anti (E : Nat) (j : Int) (d : Nat) (h : lvAtLeast E (j + d) = true) : lvAtLeast E j = true := by
  induction d with
  | zero => simpa using h
  | succ d ih =>
    refine ih (lvAtLeast_pred ?_)
    rwa [add_assoc, ← Nat.cast_succ]

/-- What the search of `lv` finds: level `n - 999` for the last place `n` that passes the test. -/
theorem lv_search (E : Nat) :
    ∃ r : Nat, lv E = r - 999 ∧ r < 1099 ∧ ∀ n : Nat, 0 < n → n < 1099 → (n ≤ r ↔ lvAtLeast E ((n : Int) - 999) = true) := by
  have anti : ∀ m n : Nat, m ≤ n → lvAtLeast E ((n : Int) - 999) = true → lvAtLeast E ((m : Int) - 999) = true := by
    intro m n hmn h
    refine lvAtLeast_anti E _ (n - m) ?_
    rwa [show (m : Int) - 999 + (n - m : Nat) = n - 999 by omega]
  obtain ⟨-, hhi, hspec⟩ := searchLast_spec anti 11 0 1099 (by decide) (by decide)
  exact ⟨_, rfl, hhi, hspec⟩

theorem lv_range (E : Nat) : -999 ≤ lv E ∧ lv E ≤ 99 := by
  obtain ⟨r, hlv, hr, -⟩ := lv_search E
  omega

/-- Within its range Lv is at least `k` exactly when the comparison of R21 says so. -/
theorem le_lv_iff (E : Nat) {k : Int} (hk : -999 < k) (hk' : k ≤ 99) : k ≤ lv E ↔ lvAtLeast E k = true := by
  obtain ⟨r, hlv, -, hspec⟩ := lv_search E
  have hn := hspec (k + 999).toNat (by omega) (by omega)
  rw [show ((k + 999).toNat : Int) - 999 = k by omega] at hn
  rw [← hn]
  omega

/-- No energy reaches no level. -/
theorem lv_zero : lv 0 = -999 := by
  have hnot : lvAtLeast 0 (-(998 : Nat)) ≠ true := by
    rw [Ne, lvAtLeast_of_nonpos, zero_pow (by decide), Nat.zero_mul, Nat.le_zero]
    exact pow_ne_zero _ (by decide)
  have hlow := (le_lv_iff 0 (by decide) (by decide)).not.mpr hnot
  have hrange := lv_range 0
  omega

/-- Energies below 2^63 stay at or below level 90: the bound of level 91 is above them. -/
theorem lv_le_of_lt {E : Nat} (h : E < 2 ^ 63) : lv E ≤ 90 := by
  by_contra hgt
  have hreach : lvAtLeast E (91 : Nat) = true := (le_lv_iff E (by decide) (by decide)).mp (by omega)
  rw [lvAtLeast_of_pos E (by decide)] at hreach
  have hpow : 2 ^ 600 ≤ 10 ^ (2 * 91 - 1) := calc
    2 ^ 600 = (2 ^ 93) ^ 6 * 2 ^ 42 := by rw [← pow_mul, ← pow_add]
    _ ≤ (10 ^ 28) ^ 6 * 10 ^ 13 := Nat.mul_le_mul (Nat.pow_le_pow_left (by decide) 6) (by decide)
    _ = 10 ^ (2 * 91 - 1) := by rw [← pow_mul, ← pow_add]
  have hge : (2 ^ 63) ^ 200 ≤ E ^ 200 := calc
    (2 ^ 63) ^ 200 = (2 ^ 60) ^ 200 * 2 ^ 600 := by rw [← pow_mul, ← pow_mul, ← pow_add]
    _ ≤ (2 ^ 60) ^ 200 * 10 ^ (2 * 91 - 1) := Nat.mul_le_mul_left _ hpow
    _ ≤ E ^ 200 := hreach
  exact absurd hge (Nat.not_le.mpr (Nat.pow_lt_pow_left h (by decide)))

/-- Settles O38: the binary search of `lv` finds the last level whose exact bound is reached. -/
theorem lvComparesWithTheExactBound : Obligations.LvComparesWithTheExactBound := by
  unfold Obligations.LvComparesWithTheExactBound
  refine ⟨lv_range, lv_zero, fun E k hk hk' => ?_, fun E k hk => ?_, fun E => lv_le_of_lt⟩
  · exact (le_lv_iff E (by omega) (by omega)).trans (lvAtLeast_of_pos E hk)
  · exact (le_lv_iff E (by omega) (by omega)).trans (lvAtLeast_of_nonpos E k)

end Sys2Proof.Proofs.Loudness
end

section

namespace Sys2Proof.Proofs.Loudness

open Sys2Proof Sys2Proof.Machine

/-!
# Crediting and results (sections 2.4 to 2.6 of chapter 2)

What a Settled Tick notice does to the integrators (R27 to R29), and what an integrator's results are (R25, R31 to R33).
-/

/-! ## Membership of a window (R28, R29) -/

theorem memberAt_iff (h : List TickRecord) (item : Bool) (seg : Handle) (t : Nat) :
    memberAt h item seg t = true ↔ ∃ q m, recordAt h t = some q ∧ q.membership = some m ∧
      (if item then m.level2 = some seg else m.level1 = seg) := by
  unfold memberAt readHistory
  cases recordAt h t with
  | none => simp [absentRecord]
  | some q => cases hm : q.membership with
    | none => simp [hm]
    | some m => cases item <;> simp [hm]

theorem windowMembers_iff {h : List TickRecord} {item : Bool} {seg : Handle} {t n : Nat} {member : Nat → Prop}
    (hm : ∀ u, member u ↔ ∃ q m, recordAt h u = some q ∧ q.membership = some m ∧
      (if item then m.level2 = some seg else m.level1 = seg)) :
    windowMembers h item seg t n = true ↔ ∀ k, k < n → k ≤ t ∧ member (t - k) := by
  simp only [windowMembers, List.all_eq_true, List.mem_range, Bool.and_eq_true, decide_eq_true_iff, memberAt_iff, hm]

/-! ## Crediting (R28, R29) -/

section crediting

variable (x : Integrator)

@[simp] theorem creditWindow_binding (e : Nat) : (x.creditWindow e).binding = x.binding := rfl
@[simp] theorem creditWindow_bins (e : Nat) : (x.creditWindow e).bins = x.bins := rfl
@[simp] theorem creditWindow_qualified (e : Nat) : (x.creditWindow e).qualified = x.qualified := rfl
@[simp] theorem creditWindow_active (e : Nat) : (x.creditWindow e).active = x.active := rfl
@[simp] theorem creditWindow_maxMomentary (e : Nat) : (x.creditWindow e).maxMomentary = x.maxMomentary := rfl

theorem creditWindow_maxShortTerm (e : Nat) :
    (x.creditWindow e).maxShortTerm = some (match x.maxShortTerm with
      | none => lv (2 * e / 15)
      | some v => max v (lv (2 * e / 15))) := by
  unfold Integrator.creditWindow normalisedShortTerm
  cases x.maxShortTerm <;> rfl

/-- A block below the absolute gate is counted and heard as momentary level, and enters no bin (R22, R28). -/
theorem creditBlock_inactive {b : Nat} (hb : b < 115292150461) :
    x.creditBlock b = { x with qualified := x.qualified + 1, maxMomentary := max x.maxMomentary (lv b) } := by
  have : activeBlock b = false := decide_eq_false (Nat.not_le.mpr hb)
  simp [Integrator.creditBlock, this]

/-- A block at or above the absolute gate is counted as active too, and its bin is raised (R22, R23, R28). -/
theorem creditBlock_active {b : Nat} (hb : 115292150461 ≤ b) :
    x.creditBlock b = { x with
      qualified := x.qualified + 1
      maxMomentary := max x.maxMomentary (lv b)
      active := x.active + 1
      bins := tablePut x.bins ((lv b + 700) / 5).toNat
        ⟨((tableGet x.bins ((lv b + 700) / 5).toNat).getD ⟨0, 0⟩).count + 1,
         ((tableGet x.bins ((lv b + 700) / 5).toNat).getD ⟨0, 0⟩).sum + b⟩ } := by
  have : activeBlock b = true := decide_eq_true hb
  simp [Integrator.creditBlock, this, binOf]

@[simp] theorem creditBlock_binding (b : Nat) : (x.creditBlock b).binding = x.binding := by
  unfold Integrator.creditBlock
  simp only
  split <;> rfl

@[simp] theorem creditBlock_maxShortTerm (b : Nat) : (x.creditBlock b).maxShortTerm = x.maxShortTerm := by
  unfold Integrator.creditBlock
  simp only
  split <;> rfl

end crediting

/-- `y` is `x` after a block of energy `b` was credited, as far as blocks go (R28). -/
structure BlockCredited (x y : Integrator) (b : Nat) : Prop where
  qualified : y.qualified = x.qualified + 1
  maxMomentary : y.maxMomentary = max x.maxMomentary (lv b)
  inactive : b < 115292150461 → y.active = x.active ∧ y.bins = x.bins
  active : 115292150461 ≤ b → y.active = x.active + 1 ∧
    ∀ k, tableGet y.bins k =
      if k = ((lv b + 700) / 5).toNat then
        some (match tableGet x.bins k with
          | some z => ⟨z.count + 1, z.sum + b⟩
          | none => ⟨1, b⟩)
      else tableGet x.bins k

theorem creditBlock_credited (x : Integrator) (b : Nat) : BlockCredited x (x.creditBlock b) b := by
  rcases Nat.lt_or_ge b 115292150461 with hb | hb
  · rw [creditBlock_inactive x hb]
    exact ⟨rfl, rfl, fun _ => ⟨rfl, rfl⟩, fun hb' => absurd hb (Nat.not_lt.mpr hb')⟩
  · rw [creditBlock_active x hb]
    refine ⟨rfl, rfl, fun hb' => absurd hb' (Nat.not_lt.mpr hb), fun _ => ⟨rfl, fun k => ?_⟩⟩
    simp only [tableGet_put]
    split
    · subst k
      cases tableGet x.bins ((lv b + 700) / 5).toNat <;> simp
    · rfl

theorem readHistory_of_recordAt {h : List TickRecord} {t : Nat} {r : TickRecord} (hr : recordAt h t = some r) :
    readHistory h t = r := by
  simp [readHistory, hr]

section credit

variable {h : List TickRecord} {item : Bool} {seg : Handle} {t : Nat} (x : Integrator)

theorem credit_binding : (x.credit h item seg t).binding = x.binding := by
  simp only [Integrator.credit]
  split <;> split <;> simp

theorem credit_of_not_block (hb : windowMembers h item seg t 4 ≠ true) :
    (x.credit h item seg t).qualified = x.qualified ∧ (x.credit h item seg t).active = x.active ∧
      (x.credit h item seg t).bins = x.bins ∧ (x.credit h item seg t).maxMomentary = x.maxMomentary := by
  simp only [Integrator.credit, if_neg hb]
  split <;> simp

theorem credit_of_block {r : TickRecord} (hr : recordAt h t = some r) (hb : windowMembers h item seg t 4 = true) :
    BlockCredited x (x.credit h item seg t) r.blockEnergy := by
  simp only [Integrator.credit, if_pos hb, readHistory_of_recordAt hr]
  obtain ⟨hq, hm, hi, ha⟩ := creditBlock_credited x r.blockEnergy
  split <;> exact ⟨hq, hm, hi, ha⟩

theorem credit_of_not_window (hw : windowMembers h item seg t 30 ≠ true) :
    (x.credit h item seg t).maxShortTerm = x.maxShortTerm := by
  simp only [Integrator.credit, if_neg hw]
  split <;> simp

theorem credit_of_window {r : TickRecord} (hr : recordAt h t = some r) (hw : windowMembers h item seg t 30 = true) :
    (x.credit h item seg t).maxShortTerm = some (match x.maxShortTerm with
      | none => lv (2 * r.shortTermEnergy / 15)
      | some v => max v (lv (2 * r.shortTermEnergy / 15))) := by
  simp only [Integrator.credit, if_pos hw, readHistory_of_recordAt hr, creditWindow_maxShortTerm,
    apply_ite Integrator.maxShortTerm, creditBlock_maxShortTerm, ite_self]

end credit

/-! ## A notice (R27) -/

section notice

variable {lm : Lm} {h : List TickRecord} {f : Feed} {n : Notice}

theorem handle_item {seg : Handle} (hl : n.membership.level2 = some seg) (hb : (lm.item.get f).binding = some seg) :
    lm.handle h f n = { lm with item := lm.item.set f ((lm.item.get f).credit h true seg n.tick) } := by
  simp [Lm.handle, hl, hb, Oct.update]

/-- Where the notice names no item, or one that no integrator is bound to, the programme's integrator is the candidate. -/
theorem handle_without_item (hi : ∀ seg, n.membership.level2 = some seg → (lm.item.get f).binding ≠ some seg) :
    lm.handle h f n =
      if (lm.programme.get f).binding = some n.membership.level1 then
        { lm with programme := lm.programme.set f ((lm.programme.get f).credit h false n.membership.level1 n.tick) }
      else lm := by
  have hnot : ¬ (n.membership.level2.isSome ∧ (lm.item.get f).binding = n.membership.level2) := by
    rintro ⟨hs, he⟩
    obtain ⟨seg, hseg⟩ := Option.isSome_iff_exists.mp hs
    exact hi seg hseg (he.trans hseg)
  simp only [Lm.handle, if_neg hnot, Oct.update]

end notice

theorem exec_settledTickNoticeLm {s : State} {f : Feed} {n : Notice} (hn : s.sg.noticeLm.get f = some n) :
    exec (.settledTickNoticeLm f) s = .next { s with
      lm := s.lm.handle (s.fiu.history.get f) f n
      sg := { s.sg with noticeLm := s.sg.noticeLm.set f none } } := by
  have harm : exec (.settledTickNoticeLm f) s = execSettledTickNoticeLm f s := rfl
  simp only [harm, execSettledTickNoticeLm, hn]
  rfl

/-! ## Results of an integrator (R25, R31 to R33) -/

/-- A sum over the bins at or above `low`, written with a test in each summand. -/
theorem sum_bins_from (low : Nat) (g : Bin → Nat) (bins : List (Nat × Bin)) :
    (bins.map (fun e => if low ≤ e.1 then g e.2 else 0)).sum =
      ((bins.filter (fun e => decide (low ≤ e.1))).map (fun e => g e.2)).sum := by
  induction bins with
  | nil => rfl
  | cons e bins ih =>
    by_cases hlow : low ≤ e.1
    · simp [hlow, ih]
    · simp [hlow, ih]

theorem results_of_empty {x : Integrator} (h0 : binCounts 0 x.bins = 0) :
    x.results = ⟨x.qualified, x.active, 0, x.maxMomentary, x.maxShortTerm, none, true⟩ := by
  simp only [Integrator.results, integratedLevel, if_pos h0]

theorem results_of_nonempty {x : Integrator} (h0 : binCounts 0 x.bins ≠ 0) :
    x.results = ⟨x.qualified, x.active, binCounts (relativeBin x.bins) x.bins, x.maxMomentary, x.maxShortTerm,
      some (lv (binSums (relativeBin x.bins) x.bins / binCounts (relativeBin x.bins) x.bins)), false⟩ := by
  simp only [Integrator.results, integratedLevel, if_neg h0]

theorem results_spec {x : Integrator} {count sum : Nat → Nat} (hc : ∀ low, count low = binCounts low x.bins)
    (hs : ∀ low, sum low = binSums low x.bins) :
    x.results.qualified = x.qualified ∧ x.results.active = x.active ∧ x.results.maxMomentary = x.maxMomentary ∧
    x.results.maxShortTerm = x.maxShortTerm ∧
    (count 0 = 0 → x.results.passing = 0 ∧ x.results.integrated = none ∧ x.results.silent = true) ∧
    (∀ low : Nat, count 0 ≠ 0 → low = ((max (lv (sum 0 / count 0) - 100) (-700) + 700) / 5).toNat →
      x.results.passing = count low ∧ x.results.integrated = some (lv (sum low / count low)) ∧ x.results.silent = false) := by
  obtain rfl : count = fun low => binCounts low x.bins := funext hc
  obtain rfl : sum = fun low => binSums low x.bins := funext hs
  by_cases h0 : binCounts 0 x.bins = 0
  · rw [results_of_empty h0]
    exact ⟨rfl, rfl, rfl, rfl, fun _ => ⟨rfl, rfl, rfl⟩, fun low hne => absurd h0 hne⟩
  · rw [results_of_nonempty h0]
    refine ⟨rfl, rfl, rfl, rfl, fun he => absurd he h0, ?_⟩
    intro low _ hlow
    have hrel : low = relativeBin x.bins := hlow
    simp only [hrel, and_self]

/-- Settles O35: each kind of notice reaches its integrator, whose credit is read off `credit`. -/
theorem levelMeterCreditsMemberBlocks : Obligations.LevelMeterCreditsMemberBlocks := by
  unfold Obligations.LevelMeterCreditsMemberBlocks
  refine ⟨?programme, ?candidate, ?unbound, ?results⟩
  case programme =>
    intro f s n r hn hl hr
    have hno : ∀ seg, n.membership.level2 = some seg → (s.lm.item.get f).binding ≠ some seg := by simp [hl]
    by_cases hb : (s.lm.programme.get f).binding = some n.membership.level1
    · refine ⟨_, (s.lm.programme.get f).credit (s.fiu.history.get f) false n.membership.level1 n.tick,
        exec_settledTickNoticeLm hn, by rw [handle_without_item hno, if_pos hb], fun hne => absurd hb hne, fun _ => ?_⟩
      have hw := windowMembers_iff (h := s.fiu.history.get f) (item := false) (seg := n.membership.level1) (t := n.tick) (n := 4)
        (fun u => Iff.rfl)
      refine ⟨fun hout => ?_, fun hin => ?_⟩
      · obtain ⟨hq, -, hbins, -⟩ := credit_of_not_block (s.lm.programme.get f) (mt hw.mp hout)
        exact ⟨hq, hbins⟩
      · obtain ⟨hq, hm, hi, ha⟩ := credit_of_block (s.lm.programme.get f) hr (hw.mpr hin)
        exact ⟨hq, hm, hi, ha⟩
    · refine ⟨_, s.lm.programme.get f, exec_settledTickNoticeLm hn, ?_, fun _ => rfl, fun he => absurd he hb⟩
      rw [handle_without_item hno, if_neg hb, Oct.set_get_self]
  case candidate =>
    intro item f s n r seg x member hn hr hseg hx hb hmem
    refine ⟨_, x.credit (s.fiu.history.get f) item seg n.tick, exec_settledTickNoticeLm hn, ?_, credit_binding x,
      fun hout => ?_, fun hin => ?_, fun hout => ?_, fun hin => ?_⟩
    · cases item with
      | true =>
        obtain rfl : x = s.lm.item.get f := hx
        rw [handle_item hseg hb]
        rfl
      | false =>
        obtain rfl : x = s.lm.programme.get f := hx
        obtain ⟨rfl, hl⟩ : n.membership.level1 = seg ∧ n.membership.level2 = none := hseg
        rw [handle_without_item (by simp [hl]), if_pos hb]
        rfl
    · exact credit_of_not_block x (mt (windowMembers_iff hmem).mp hout)
    · obtain ⟨hq, hm, hi, ha⟩ := credit_of_block x hr ((windowMembers_iff hmem).mpr hin)
      exact ⟨hq, hm, hi, ha⟩
    · exact credit_of_not_window x (mt (windowMembers_iff hmem).mp hout)
    · exact credit_of_window x hr ((windowMembers_iff hmem).mpr hin)
  case unbound =>
    intro f s n hn hi hb
    rw [exec_settledTickNoticeLm hn, handle_without_item hi, if_neg hb]
  case results =>
    intro x count sum hc hs
    exact results_spec (fun low => (hc low).trans (sum_bins_from low Bin.count x.bins).symm)
      (fun low => (hs low).trans (sum_bins_from low Bin.sum x.bins).symm)

end Sys2Proof.Proofs.Loudness
end

section

namespace Sys2Proof.Proofs.Loudness

open Sys2Proof Sys2Proof.Machine

/-!
# METER, SEGMENT_READ and SEGMENT_LIST (R30, R35, R36, R98, R99)

The three requests only read; what each answers, outcome by outcome.
-/

/-! ## Optional fields (R197) -/

@[simp] theorem optionalField_none {α : Type} (f : α → List Wire) : optionalField f none = [.byte 0] := rfl

@[simp] theorem optionalField_some {α : Type} (f : α → List Wire) (a : α) : optionalField f (some a) = .byte 1 :: f a := rfl

/-- Fields that are given by the cases of an optional value are the field of that value. -/
theorem optionalField_eq_of {α : Type} {f : α → List Wire} {o : Option α} {fields : List Wire}
    (hnone : o = none → fields = [.byte 0]) (hsome : ∀ a, o = some a → fields = .byte 1 :: f a) : optionalField f o = fields := by
  cases o with
  | none => exact (hnone rfl).symm
  | some a => exact (hsome a rfl).symm

theorem optionalField_ite {α : Type} (f : α → List Wire) (p : Prop) [Decidable p] (a : α) :
    optionalField f (if p then some a else none) = if p then .byte 1 :: f a else [.byte 0] := by
  split <;> rfl

/-! ## Requests that only read -/

section reading

variable {α : Type} {l : Link} {s : State}

/-- A request whose block leaves the state as it got it changes nothing but the link's slot. -/
theorem passRequest_of_read {k : Nat} {a : α} {body : α → State → State × Reply} {r : Reply} (h : s.mayAsk l k)
    (hread : ∀ li, body a (s.withLi li) = (s.withLi li, r)) :
    passRequest k l (.fits a) s body = { s with li := s.li.passed l k r } := by
  rw [passRequest_fits a body h, hread]
  rfl

theorem meterTaken_withLi (b : Byte) (li : Li) : meterTaken b (s.withLi li) = (s.withLi li, (meterTaken b s).2) := by
  unfold meterTaken
  cases feedOf b <;> rfl

theorem segmentReadTaken_withLi (a : SegmentReadArgs) (li : Li) :
    segmentReadTaken a (s.withLi li) = (s.withLi li, (segmentReadTaken a s).2) := by
  simp only [segmentReadTaken, State.withLi_sg, State.withLi_lm]
  split
  · rfl
  · cases tableGet s.sg.table a.slot.toNat with
    | none => rfl
    | some e =>
      simp only
      split <;> rfl

theorem segmentListTaken_withLi (a : SegmentListArgs) (li : Li) :
    segmentListTaken a (s.withLi li) = (s.withLi li, (segmentListTaken a s).2) := by
  simp only [segmentListTaken, State.withLi_sg]
  split
  · rfl
  · split <;> rfl

theorem exec_meter {b : Byte} (h : s.mayAsk l 2) :
    exec (.meter l (.fits b)) s = .next { s with li := s.li.passed l 2 (meterTaken b s).2 } :=
  congrArg Host.Outcome.next (passRequest_of_read h (meterTaken_withLi b))

theorem exec_segmentRead {a : SegmentReadArgs} (h : s.mayAsk l 3) :
    exec (.segmentRead l (.fits a)) s = .next { s with li := s.li.passed l 3 (segmentReadTaken a s).2 } :=
  congrArg Host.Outcome.next (passRequest_of_read h (segmentReadTaken_withLi a))

theorem exec_segmentList {a : SegmentListArgs} (h : s.mayAsk l 4) :
    exec (.segmentList l (.fits a)) s = .next { s with li := s.li.passed l 4 (segmentListTaken a s).2 } :=
  congrArg Host.Outcome.next (passRequest_of_read h (segmentListTaken_withLi a))

end reading

/-! ## METER (R35, R36) -/

theorem meterTaken_noFeed {b : Byte} (s : State) (h : 7 < b.toNat) : (meterTaken b s).2 = ⟨.badArgument, []⟩ := by
  have hno : feedOf b = none := Option.eq_none_iff_forall_ne_some.mpr fun f hf => by
    have := feedOf_eq_some.mp hf
    omega
  simp only [meterTaken, hno, refuse]

theorem meterTaken_feed {b : Byte} {f : Feed} (s : State) (h : b.toNat = f.val) :
    (meterTaken b s).2 = ⟨.ok, meterFields s f⟩ := by
  simp only [meterTaken, feedOf_eq_some.mpr h]

/-- METER's last items: the effective segment of tick F (R36). -/
def effectiveFields (s : State) (f : Feed) : List Wire :=
  optionalField (fun (x : Handle × Segment) => handleFields x.1 ++ [.byte x.2.kind.place]
    ++ optionalField (fun i => [.long i]) x.2.segmentId ++ [.byte x.2.state.place]) (s.effectiveAtFrontier f)

/-- METER's items of the newest tick record, if there is one (R36). -/
def newestFields (newest : Option TickRecord) : List Wire :=
  optionalField (fun (r : TickRecord) => [.tick r.tick]) newest ++ optionalField (fun (r : TickRecord) => [.choice r.noInput]) newest
    ++ [.signedWord (match newest with | some r => lv r.blockEnergy | none => -999),
        .signedWord (match newest with | some r => lv (normalisedShortTerm r.shortTermEnergy) | none => -999)]

/-- METER's payload, part by part; the parts that depend on a choice are given by equations. -/
theorem meterFields_eq (s : State) (f : Feed) {pending newest caption frontier : List Wire}
    (hpending : optionalField settingFields (s.fiu.pendingSettings.get f) = pending)
    (hnewest : newestFields (s.fiu.history.get f).getLast? = newest)
    (hcaption : captionStateFields (s.cc.feeds.get f).state = caption)
    (hfrontier : optionalField (fun t => [.tick t]) s.fiu.frontier = frontier) :
    meterFields s f = List.flatten
      [[.byte f.val, .byte (layoutPlace (s.fiu.settings.get f).layout), .choice (s.fiu.settings.get f).enabled], pending,
       [.byte (if (s.fiu.lanes.get f).locked then 0 else 1)], newest, caption,
       [.word (s.cc.feeds.get f).age, .byte (if (s.cc.feeds.get f).carriage then 0 else 1), .word (s.fiu.captionErrors.get f)],
       frontier, effectiveFields s f] := by
  subst hpending hnewest hcaption hfrontier
  cases hn : (s.fiu.history.get f).getLast? <;>
    simp only [meterFields, newestFields, effectiveFields, settingFields, hn, optionalField_none, optionalField_some,
      List.flatten_cons, List.flatten_nil, List.append_assoc, List.append_nil, List.cons_append, List.nil_append]

section effective

variable {s : State} {f : Feed} {u : Nat} (hF : s.fiu.frontier = some u)

theorem effective_of_noFrontier (hF : s.fiu.frontier = none) : s.effectiveAtFrontier f = none := by
  simp only [State.effectiveAtFrontier, hF]

include hF

theorem effective_of_provisional (hp : ∀ q, recordAt (s.fiu.history.get f) u = some q → q.membership = none) :
    s.effectiveAtFrontier f = none := by
  have hm : (readHistory (s.fiu.history.get f) u).membership = none := by
    unfold readHistory
    cases hr : recordAt (s.fiu.history.get f) u with
    | none => rfl
    | some q => exact hp q hr
  simp only [State.effectiveAtFrontier, hF, hm]

variable {q : TickRecord} {m : Membership} (hr : recordAt (s.fiu.history.get f) u = some q) (hm : q.membership = some m)

include hr hm

theorem effective_of_unlisted (ht : tableGet s.sg.table (m.level2.getD m.level1).index = none) :
    s.effectiveAtFrontier f = none := by
  simp only [State.effectiveAtFrontier, hF, readHistory, hr, Option.getD_some, hm, ht]

/-- The record in the slot is that of the handle only while it opened at the handle's tick (R79). -/
theorem effective_of_listed {e : Segment} (ht : tableGet s.sg.table (m.level2.getD m.level1).index = some e) :
    s.effectiveAtFrontier f =
      if e.openTick = (m.level2.getD m.level1).openTick then some (m.level2.getD m.level1, e) else none := by
  simp only [State.effectiveAtFrontier, hF, readHistory, hr, Option.getD_some, hm, ht]

end effective

theorem effectiveFields_none {s : State} {f : Feed} (h : s.effectiveAtFrontier f = none) : effectiveFields s f = [.byte 0] := by
  rw [effectiveFields, h, optionalField_none]

theorem effectiveFields_some {s : State} {f : Feed} {x : Handle} {e : Segment} (h : s.effectiveAtFrontier f = some (x, e)) :
    effectiveFields s f = .byte 1 :: .byte x.index :: .tick x.openTick :: .byte e.kind.place ::
      (optionalField (fun i => [.long i]) e.segmentId ++ [.byte e.state.place]) := by
  simp [effectiveFields, h, handleFields]

/-! ## SEGMENT_READ (R30, R98) -/

section segmentRead

variable {s : State} {a : SegmentReadArgs}

theorem segmentReadTaken_noSlot (h : 127 < a.slot.toNat) : (segmentReadTaken a s).2 = ⟨.badArgument, []⟩ := by
  have hs : Config.segmentSlots ≤ a.slot.toNat := h
  simp only [segmentReadTaken, if_pos hs, refuse]

variable (hs : a.slot.toNat ≤ 127)

include hs

theorem segmentReadTaken_free (ht : tableGet s.sg.table a.slot.toNat = none) :
    (segmentReadTaken a s).2 = ⟨.notFound, []⟩ := by
  have hs' : ¬ Config.segmentSlots ≤ a.slot.toNat := Nat.not_le.mpr (Nat.lt_succ_of_le hs)
  simp only [segmentReadTaken, if_neg hs', ht, refuse]

variable {e : Segment} (ht : tableGet s.sg.table a.slot.toNat = some e)

include ht

theorem segmentReadTaken_otherTick {u : BitVec 48} (ha : a.openTick = some u) (hu : u.toNat ≠ e.openTick) :
    (segmentReadTaken a s).2 = ⟨.notFound, []⟩ := by
  have hs' : ¬ Config.segmentSlots ≤ a.slot.toNat := Nat.not_le.mpr (Nat.lt_succ_of_le hs)
  simp [segmentReadTaken, hs', ht, ha, hu, refuse]

theorem segmentReadTaken_found (ha : ∀ u, a.openTick = some u → u.toNat = e.openTick) :
    (segmentReadTaken a s).2 = ⟨.ok, segmentFields s.lm (a.slot.toNat, e)⟩ := by
  have hs' : ¬ Config.segmentSlots ≤ a.slot.toNat := Nat.not_le.mpr (Nat.lt_succ_of_le hs)
  have hopen : ¬ (a.openTick.isSome ∧ a.openTick.map BitVec.toNat ≠ some e.openTick) := by
    rintro ⟨hsome, hne⟩
    obtain ⟨u, hu⟩ := Option.isSome_iff_exists.mp hsome
    exact hne (by rw [hu, Option.map_some, ha u hu])
  simp only [segmentReadTaken, if_neg hs', ht, if_neg hopen]

end segmentRead

/-- A BREAK has no integrator; an item has that of level 2, any other segment that of level 1 (section 2.4). -/
theorem integratorOf_eq (lm : Lm) (f : Feed) {kind : SegmentKind} (h : kind ≠ .adBreak) :
    lm.integratorOf f kind = some (if kind = .item then lm.item.get f else lm.programme.get f) := by
  cases kind with
  | adBreak => exact absurd rfl h
  | _ => rfl

section shown

variable {lm : Lm} {i : Nat} {e : Segment}

theorem shownLoudness_closed (h : e.state = .closed) :
    shownLoudness lm (i, e) =
      e.loudness.map (fun x => (x.qualified, x.active, some x.passing, x.maxMomentary, x.maxShortTerm, x.integrated)) := by
  simp only [shownLoudness, h]

theorem shownLoudness_notClosed (h : e.state ≠ .closed) :
    shownLoudness lm (i, e) = (lm.integratorOf e.feed e.kind).bind (fun x =>
      if x.binding = some ⟨i, e.openTick⟩ then some (x.qualified, x.active, none, x.maxMomentary, x.maxShortTerm, none) else none) := by
  unfold shownLoudness
  cases hstate : e.state with
  | closed => exact absurd hstate h
  | _ => cases lm.integratorOf e.feed e.kind <;> rfl

theorem shownLoudness_break (h : e.state ≠ .closed) (hk : e.kind = .adBreak) : shownLoudness lm (i, e) = none := by
  rw [shownLoudness_notClosed h, hk]
  rfl

theorem shownLoudness_unbound {x : Integrator} (h : e.state ≠ .closed) (hk : e.kind ≠ .adBreak)
    (hx : x = if e.kind = .item then lm.item.get e.feed else lm.programme.get e.feed)
    (hb : x.binding ≠ some ⟨i, e.openTick⟩) : shownLoudness lm (i, e) = none := by
  rw [shownLoudness_notClosed h, integratorOf_eq lm e.feed hk, ← hx, Option.bind_some, if_neg hb]

theorem shownLoudness_bound {x : Integrator} (h : e.state ≠ .closed) (hk : e.kind ≠ .adBreak)
    (hx : x = if e.kind = .item then lm.item.get e.feed else lm.programme.get e.feed)
    (hb : x.binding = some ⟨i, e.openTick⟩) :
    shownLoudness lm (i, e) = some (x.qualified, x.active, none, x.maxMomentary, x.maxShortTerm, none) := by
  rw [shownLoudness_notClosed h, integratorOf_eq lm e.feed hk, ← hx, Option.bind_some, if_pos hb]

end shown

/-! ## SEGMENT_LIST (R99) -/

theorem mem_allFeeds : ∀ f : Feed, f ∈ allFeeds := by decide

theorem maskFeeds_eq_nil {b : Byte} : maskFeeds b = [] ↔ b = 0 := by
  constructor
  · intro h
    refine BitVec.eq_of_getLsbD_eq fun i hi => ?_
    have hbit := List.filter_eq_nil_iff.mp h ⟨i, hi⟩ (mem_allFeeds _)
    rw [decide_eq_true_iff] at hbit
    rw [BitVec.getLsbD, Nat.testBit_eq_decide_div_mod_eq, decide_eq_false hbit]
    exact (BitVec.getLsbD_zero).symm
  · rintro rfl
    rfl

section refusals

variable {s : State} {a : SegmentListArgs}

theorem segmentListTaken_refused (h : a.mask = 0 ∨ 1 < a.selector.toNat) : (segmentListTaken a s).2 = ⟨.badArgument, []⟩ := by
  by_cases hm : maskFeeds a.mask = []
  · simp only [segmentListTaken, if_pos hm, refuse]
  · have hsel := h.resolve_left (mt maskFeeds_eq_nil.mpr hm)
    simp only [segmentListTaken, if_neg hm]
    split
    · omega
    · omega
    · rfl

theorem segmentListTaken_active (hm : a.mask ≠ 0) (hsel : a.selector = 0) :
    (segmentListTaken a s).2 = ⟨.ok, listed summaryFields (listActive s.sg.table (maskFeeds a.mask) []).1
      ++ optionalField (fun (f : Feed) => [.byte f.val]) (listActive s.sg.table (maskFeeds a.mask) []).2⟩ := by
  simp only [segmentListTaken, if_neg (mt maskFeeds_eq_nil.mp hm), hsel]
  rfl

theorem segmentListTaken_closed {u : BitVec 48} (hm : a.mask ≠ 0) (hsel : a.selector = 1) (hu : a.after = some u) :
    (segmentListTaken a s).2 = ⟨.ok, closedListFields s.sg.table (maskFeeds a.mask) u.toNat⟩ := by
  simp only [segmentListTaken, if_neg (mt maskFeeds_eq_nil.mp hm), hsel, hu]
  rfl

end refusals

/-! ### The ACTIVE selector -/

/-- The ACTIVE list takes whole feeds from the front of the mask while they fit, and names the next. -/
theorem listActive_spec (table : List (Nat × Segment)) (fs : List Feed) :
    ∀ acc : List (Nat × Segment), acc.length ≤ 12 → ∃ feeds rest, fs = feeds ++ rest ∧
      listActive table fs acc = (acc ++ (feeds.map (activeOf table)).flatten, rest.head?) ∧
      (acc ++ (feeds.map (activeOf table)).flatten).length ≤ 12 ∧
      ∀ f, rest.head? = some f → 12 < (acc ++ (feeds.map (activeOf table)).flatten).length + (activeOf table f).length := by
  induction fs with
  | nil =>
    intro acc hacc
    exact ⟨[], [], rfl, by simp [listActive], by simpa using hacc, by simp⟩
  | cons f fs ih =>
    intro acc hacc
    by_cases hfit : Config.summariesPerReply < (acc ++ activeOf table f).length
    · refine ⟨[], f :: fs, rfl, ?_, by simpa using hacc, ?_⟩
      · simp only [listActive, if_pos hfit, List.map_nil, List.flatten_nil, List.append_nil, List.head?_cons]
      · rintro g ⟨rfl⟩
        have hmore : 12 < acc.length + (activeOf table f).length := List.length_append ▸ hfit
        simpa using hmore
    · obtain ⟨feeds, rest, hsplit, hlist, hlen, hnext⟩ := ih (acc ++ activeOf table f) (Nat.le_of_not_lt hfit)
      refine ⟨f :: feeds, rest, by rw [hsplit, List.cons_append], ?_, ?_, ?_⟩
      · simp only [listActive, if_neg hfit, hlist, List.map_cons, List.flatten_cons, List.append_assoc]
      · simpa only [List.map_cons, List.flatten_cons, List.append_assoc] using hlen
      · simpa only [List.map_cons, List.flatten_cons, List.append_assoc] using hnext

theorem activeOf_eq (table : List (Nat × Segment)) (f : Feed) :
    activeOf table f = (table.find? (fun e => decide (e.2.feed = f ∧ e.2.state = .opened ∧ e.2.kind ≠ .item))).toList
      ++ ((table.find? (fun e => decide (e.2.feed = f ∧ e.2.state = .suspended))).toList
      ++ (table.find? (fun e => decide (e.2.feed = f ∧ e.2.state = .opened ∧ e.2.kind = .item))).toList) := by
  simp only [activeOf, openLevel1, suspendedProgramme, openItem, isOpenLevel1, isSuspended, isOpenItem, List.append_assoc,
    Bool.decide_and, Bool.and_assoc]

/-! ### The CLOSED selector -/

/-- The order of `sortBySeq`. -/
abbrev seqLE (x y : Nat × Segment) : Prop := x.2.closeSeq.getD 0 ≤ y.2.closeSeq.getD 0

theorem insertBySeq_eq (e : Nat × Segment) (es : List (Nat × Segment)) : insertBySeq e es = es.orderedInsert seqLE e := by
  induction es with
  | nil => rfl
  | cons x es ih => rw [insertBySeq, List.orderedInsert_cons, ih]

theorem sortBySeq_eq (es : List (Nat × Segment)) : sortBySeq es = es.insertionSort seqLE := by
  induction es with
  | nil => rfl
  | cons x es ih => rw [List.insertionSort_cons, ← ih, ← insertBySeq_eq]; rfl

theorem sortBySeq_pairwise (es : List (Nat × Segment)) : (sortBySeq es).Pairwise seqLE := by
  have : Std.Total seqLE := ⟨fun x y => Nat.le_total _ _⟩
  have : IsTrans _ seqLE := ⟨fun x y z => Nat.le_trans⟩
  rw [sortBySeq_eq]
  exact List.pairwise_insertionSort seqLE es

theorem mem_closedBeyond {table : List (Nat × Segment)} {mask : List Feed} {after : Nat} {x : Nat × Segment} :
    x ∈ closedBeyond table mask after ↔
      x ∈ table ∧ x.2.feed ∈ mask ∧ x.2.state = .closed ∧ ∃ q, x.2.closeSeq = some q ∧ after < q := by
  rw [closedBeyond, sortBySeq_eq, List.mem_insertionSort, List.mem_filter]
  cases x.2.closeSeq <;> simp [and_assoc]

theorem closedBeyond_nodup {table : List (Nat × Segment)} (hs : tableSorted table) (mask : List Feed) (after : Nat) :
    (closedBeyond table mask after).Nodup := by
  have hnodup : table.Nodup := List.Pairwise.imp (fun hlt heq => Nat.ne_of_lt hlt (congrArg Prod.fst heq)) hs
  rw [closedBeyond, sortBySeq_eq]
  exact (List.perm_insertionSort seqLE _).nodup_iff.mpr (hnodup.filter _)

/-- Whether a record's verdict is DONE. -/
def isDone (e : Nat × Segment) : Bool := decide (e.2.verdict = some .done)

theorem listClosed_eq (es : List (Nat × Segment)) : listClosed es = (es.takeWhile isDone).take 12 := rfl

theorem listClosed_length (es : List (Nat × Segment)) : (listClosed es).length ≤ 12 := List.length_take_le 12 _

theorem done_of_mem_listClosed {es : List (Nat × Segment)} {e : Nat × Segment} (h : e ∈ listClosed es) :
    e.2.verdict = some .done := by
  rw [listClosed_eq] at h
  have hdone : isDone e = true := List.mem_takeWhile_imp (List.mem_of_mem_take h)
  exact of_decide_eq_true hdone

/-- What a CLOSED list shows is a front part of the records beyond; where it is shorter than twelve, the first record left out is not DONE. -/
theorem listClosed_split (es : List (Nat × Segment)) :
    ∃ rest, es = listClosed es ++ rest ∧
      ((listClosed es).length < 12 → ∀ y, rest.head? = some y → y.2.verdict ≠ some .done) := by
  refine ⟨(es.takeWhile isDone).drop 12 ++ es.dropWhile isDone, ?_, fun hlen y hy => ?_⟩
  · rw [listClosed_eq, ← List.append_assoc, List.take_append_drop, List.takeWhile_append_dropWhile]
  · rw [listClosed_eq, List.length_take] at hlen
    rw [List.drop_eq_nil_of_le (by omega), List.nil_append] at hy
    have hstop := List.head?_dropWhile_not isDone es
    rw [hy] at hstop
    exact of_decide_eq_false hstop

/-- A front part of a list without repetitions is shorter than it exactly when it misses a member. -/
theorem length_lt_append_iff {α : Type} {front rest : List α} (h : (front ++ rest).Nodup) :
    front.length < (front ++ rest).length ↔ ∃ x ∈ front ++ rest, x ∉ front := by
  cases rest with
  | nil => simp
  | cons y ys =>
    have hy : y ∉ front := fun hmem => (List.nodup_append.mp h).2.2 y hmem y List.mem_cons_self rfl
    exact ⟨fun _ => ⟨y, List.mem_append_right _ List.mem_cons_self, hy⟩, fun _ => by simp⟩

/-- The records that a CLOSED list shows (R99). -/
abbrev shownClosed (table : List (Nat × Segment)) (mask : List Feed) (after : Nat) : List (Nat × Segment) :=
  listClosed (closedBeyond table mask after)

/-- The close sequence that a CLOSED list names as reached (R99). -/
def reachedBy (shown : List (Nat × Segment)) (after : Nat) : Nat := (shown.getLast?.bind (fun e => e.2.closeSeq)).getD after

theorem closedListFields_eq (table : List (Nat × Segment)) (mask : List Feed) (after : Nat) :
    closedListFields table mask after =
      .byte (shownClosed table mask after).length :: ((shownClosed table mask after).map summaryFields).flatten
        ++ [.tick (reachedBy (shownClosed table mask after) after),
            .choice (decide ((shownClosed table mask after).length < (closedBeyond table mask after).length))] := rfl

theorem reachedBy_nil (after : Nat) : reachedBy [] after = after := rfl

theorem reachedBy_last {shown : List (Nat × Segment)} {e : Nat × Segment} {q : Nat} (after : Nat) (he : shown.getLast? = some e)
    (hq : e.2.closeSeq = some q) : reachedBy shown after = q := by
  simp only [reachedBy, he, Option.bind_some, hq, Option.getD_some]

section closedList

variable {table : List (Nat × Segment)} {mask : List Feed} {after : Nat}

/-- A predicate that says what lies beyond, with its close sequence, in the words of R99, is membership in `closedBeyond`. -/
theorem beyond_iff {beyond : Nat × Segment → Nat → Prop}
    (hb : ∀ e q, beyond e q ↔ e ∈ table ∧ e.2.feed ∈ mask ∧ e.2.state = .closed ∧ e.2.closeSeq = some q ∧ after < q)
    (e : Nat × Segment) (q : Nat) : beyond e q ↔ e ∈ closedBeyond table mask after ∧ e.2.closeSeq = some q := by
  rw [hb, mem_closedBeyond]
  constructor
  · rintro ⟨ht, hf, hc, hq, hlt⟩
    exact ⟨⟨ht, hf, hc, q, hq, hlt⟩, hq⟩
  · rintro ⟨⟨ht, hf, hc, v, hv, hlt⟩, hq⟩
    obtain rfl : v = q := Option.some.inj (hv.symm.trans hq)
    exact ⟨ht, hf, hc, hq, hlt⟩

theorem listClosed_subset {e : Nat × Segment} (h : e ∈ shownClosed table mask after) :
    e ∈ closedBeyond table mask after := by
  obtain ⟨rest, hsplit, -⟩ := listClosed_split (closedBeyond table mask after)
  rw [hsplit]
  exact List.mem_append_left _ h

theorem listClosed_pairwise (es : List (Nat × Segment)) : (listClosed (sortBySeq es)).Pairwise seqLE := by
  obtain ⟨rest, hsplit, -⟩ := listClosed_split (sortBySeq es)
  have hsorted := sortBySeq_pairwise es
  rw [hsplit] at hsorted
  obtain ⟨hfront, -, -⟩ := List.pairwise_append.mp hsorted
  exact hfront

theorem closeSeq_of_shown {e : Nat × Segment} (h : e ∈ shownClosed table mask after) : ∃ q, e.2.closeSeq = some q ∧ after < q := by
  obtain ⟨-, -, -, hq⟩ := mem_closedBeyond.mp (listClosed_subset h)
  exact hq

/-- A record beyond with a lower close sequence than a shown one is shown (R99). -/
theorem shown_of_lower {e x : Nat × Segment} {q v : Nat} (he : e ∈ shownClosed table mask after)
    (hx : x ∈ closedBeyond table mask after) (hq : e.2.closeSeq = some q) (hv : x.2.closeSeq = some v) (hlt : v < q) :
    x ∈ shownClosed table mask after := by
  by_contra hxn
  obtain ⟨rest, hsplit, -⟩ := listClosed_split (closedBeyond table mask after)
  have hsorted : (closedBeyond table mask after).Pairwise seqLE := sortBySeq_pairwise _
  rw [hsplit] at hsorted hx
  obtain ⟨-, -, hacross⟩ := List.pairwise_append.mp hsorted
  have hle := hacross e he x ((List.mem_append.mp hx).resolve_left hxn)
  simp only [seqLE, hq, hv, Option.getD_some] at hle
  omega

/-- Where fewer than twelve are shown, a record left out lies at or behind one that is not DONE (R99). -/
theorem pending_before_unshown (hlen : (shownClosed table mask after).length < 12) {x : Nat × Segment} {v : Nat}
    (hx : x ∈ closedBeyond table mask after) (hv : x.2.closeSeq = some v) (hxn : x ∉ shownClosed table mask after) :
    ∃ y w, (y ∈ closedBeyond table mask after ∧ y.2.closeSeq = some w) ∧ w ≤ v ∧ y.2.verdict ≠ some .done := by
  obtain ⟨rest, hsplit, hstop⟩ := listClosed_split (closedBeyond table mask after)
  cases rest with
  | nil => exact absurd (by rwa [hsplit, List.append_nil] at hx) hxn
  | cons y ys =>
    have hy : y ∈ closedBeyond table mask after := by
      rw [hsplit]
      exact List.mem_append_right _ List.mem_cons_self
    have hsorted : (closedBeyond table mask after).Pairwise seqLE := sortBySeq_pairwise _
    rw [hsplit] at hsorted hx
    obtain ⟨-, hrest, -⟩ := List.pairwise_append.mp hsorted
    have hle : seqLE y x := by
      rcases List.mem_cons.mp ((List.mem_append.mp hx).resolve_left hxn) with rfl | hxs
      · exact Nat.le_refl _
      · exact List.rel_of_pairwise_cons hrest hxs
    obtain ⟨-, -, -, w, hw, -⟩ := mem_closedBeyond.mp hy
    simp only [seqLE, hw, hv, Option.getD_some] at hle
    exact ⟨y, w, ⟨hy, hw⟩, hle, hstop hlen y rfl⟩

/-- The list is shorter than the records beyond exactly when it leaves one out. -/
theorem length_lt_iff_unshown (hs : tableSorted table) :
    (shownClosed table mask after).length < (closedBeyond table mask after).length ↔
      ∃ x v, (x ∈ closedBeyond table mask after ∧ x.2.closeSeq = some v) ∧ x ∉ shownClosed table mask after := by
  obtain ⟨rest, hsplit, -⟩ := listClosed_split (closedBeyond table mask after)
  have hnodup := closedBeyond_nodup hs mask after
  rw [hsplit] at hnodup
  have hiff := length_lt_append_iff hnodup
  rw [← hsplit] at hiff
  rw [hiff]
  constructor
  · rintro ⟨x, hx, hxn⟩
    obtain ⟨-, -, -, v, hv, -⟩ := mem_closedBeyond.mp hx
    exact ⟨x, v, ⟨hx, hv⟩, hxn⟩
  · rintro ⟨x, v, ⟨hx, -⟩, hxn⟩
    exact ⟨x, hx, hxn⟩

end closedList

/-! ## The obligation -/

/-- Settles O40: each request's reply is read off, outcome by outcome; its fields agree with the statement's part by part. -/
theorem segmentReadsShowAndChangeNothing : Obligations.SegmentReadsShowAndChangeNothing := by
  unfold Obligations.SegmentReadsShowAndChangeNothing
  refine ⟨?summary, ?meter, ?segmentRead, ?segmentList⟩
  case summary =>
    intro i e
    simp only [summaryFields, handleFields, handleOf, verdictFields, List.flatten_cons, List.flatten_nil,
      List.append_assoc, List.append_nil, List.cons_append, List.nil_append]
    congr <;> exact optionalField_eq_of (fun h => h ▸ rfl) (fun v h => h ▸ rfl)
  case meter =>
    intro l b s h
    refine ⟨_, exec_meter h, meterTaken_noFeed s, fun f hf => ⟨effectiveFields s f, ?_, ?_, ?_, ?_, ?_⟩⟩
    · rw [meterTaken_feed s hf]
      refine congrArg (Reply.mk .ok) (meterFields_eq s f ?_ ?_ ?_ ?_)
      · cases s.fiu.pendingSettings.get f <;> rfl
      · cases (s.fiu.history.get f).getLast? <;> rfl
      · cases (s.cc.feeds.get f).state <;> rfl
      · cases s.fiu.frontier <;> rfl
    · intro u q m x e hF hr hm hx ht
      obtain rfl : x = m.level2.getD m.level1 := by rw [hx]; cases m.level2 <;> rfl
      have heff := effective_of_listed hF hr hm ht
      refine ⟨fun he => ?_, fun hne => effectiveFields_none (heff.trans (if_neg hne))⟩
      rw [effectiveFields_some (heff.trans (if_pos he))]
      cases e.segmentId <;> rfl
    · intro u q m x hF hr hm hx ht
      obtain rfl : x = m.level2.getD m.level1 := by rw [hx]; cases m.level2 <;> rfl
      exact effectiveFields_none (effective_of_unlisted hF hr hm ht)
    · exact fun u hF hp => effectiveFields_none (effective_of_provisional hF hp)
    · exact fun hF => effectiveFields_none (effective_of_noFrontier hF)
  case segmentRead =>
    intro l a s h
    refine ⟨_, exec_segmentRead h, segmentReadTaken_noSlot, segmentReadTaken_free, fun e hs ht => ⟨?_, fun ha => ?_⟩⟩
    · intro u hu hne
      exact segmentReadTaken_otherTick hs ht hu hne
    refine ⟨optionalField loudnessFields (shownLoudness s.lm (a.slot.toNat, e)), ?_, ?_, ?_, ?_, ?_⟩
    · rw [segmentReadTaken_found hs ht ha]
      delta segmentFields
      simp only [optionalField_ite, List.flatten_cons, List.flatten_nil,
        List.append_assoc, List.append_nil, List.cons_append, List.nil_append, verdictFields]
      congr <;> exact optionalField_eq_of (fun h => h ▸ rfl) (fun v h => h ▸ rfl)
    · intro hc hl
      rw [shownLoudness_closed hc, hl]
      rfl
    · intro x hc hl
      rw [shownLoudness_closed hc, hl]
      simp only [Option.map_some, optionalField_some, loudnessFields, List.flatten_cons, List.flatten_nil,
        List.append_nil, List.cons_append, List.nil_append]
      congr <;> exact optionalField_eq_of (fun h => h ▸ rfl) (fun v h => h ▸ rfl)
    · intro hc hk
      rw [shownLoudness_break hc hk]
      rfl
    · intro x hc hk hx
      constructor
      · intro hb
        rw [shownLoudness_unbound hc hk hx hb]
        rfl
      · intro hb
        rw [shownLoudness_bound hc hk hx hb]
        simp only [optionalField_some, optionalField_none, loudnessFields, List.flatten_cons, List.flatten_nil,
          List.append_nil, List.cons_append, List.nil_append]
        congr
        exact optionalField_eq_of (fun h => h ▸ rfl) (fun v h => h ▸ rfl)
  case segmentList =>
    intro l a s h
    refine ⟨_, exec_segmentList h, segmentListTaken_refused, ?_, ?_, ?_⟩
    · intro u hm hsel hu
      rw [segmentListTaken_closed hm hsel hu]
      refine ⟨listClosed (closedBeyond s.sg.table (maskFeeds a.mask) u.toNat), rfl, ⟨_, rfl⟩, listClosed_length _, fun e he => ?_,
        listClosed_pairwise _⟩
      obtain ⟨ht, hf, hc, hq⟩ := mem_closedBeyond.mp (listClosed_subset he)
      exact ⟨ht, hf, hc, done_of_mem_listClosed he, hq⟩
    · intro u hm hsel hu hs
      rw [segmentListTaken_closed hm hsel hu, closedListFields_eq]
      refine ⟨_, _, _, rfl, listClosed_length _, fun e he => ⟨done_of_mem_listClosed he, closeSeq_of_shown he⟩, fun h0 => ?_,
        fun e he => ?_, fun beyond hb => ?_⟩
      · rw [h0, reachedBy_nil]
      · obtain ⟨q, hq, -⟩ := closeSeq_of_shown (List.mem_of_getLast? he)
        rw [reachedBy_last _ he hq, hq]
      simp only [beyond_iff hb, decide_eq_true_iff]
      refine ⟨fun e he => ?_, ?_, ?_, length_lt_iff_unshown hs⟩
      · obtain ⟨q, hq, -⟩ := closeSeq_of_shown he
        exact ⟨q, listClosed_subset he, hq⟩
      · rintro e q x v he ⟨-, hq⟩ ⟨hx, hv⟩ hlt
        exact shown_of_lower he hx hq hv hlt
      · rintro hlen x v ⟨hx, hv⟩ hxn
        exact pending_before_unshown hlen hx hv hxn
    · intro active hm hsel hact
      obtain rfl : active = activeOf s.sg.table := funext fun f => (hact f).trans (activeOf_eq _ f).symm
      obtain ⟨feeds, rest, hsplit, hlist, hlen, hnext⟩ := listActive_spec s.sg.table (maskFeeds a.mask) [] (Nat.zero_le _)
      refine ⟨feeds, rest, _, hsplit, rfl, hlen, hnext, ?_⟩
      rw [segmentListTaken_active hm hsel, hlist]
      cases rest <;> rfl

end Sys2Proof.Proofs.Loudness
end

section

namespace Sys2Proof.Proofs.Subtitles

open Sys2Proof Sys2Proof.Machine

/-!
# Subtitle presence and dead air (chapter 3, R44 to R54)

What a Settled Tick notice does to the Caption Checker's watches, to the records of the tick's segments, and to the reports that wait.
-/

/-! ## Judging a tick (R45 to R47) -/

theorem judgeTick_speech_iff (e : Segment) (r : TickRecord) :
    (judgeTick e r).speech = true ↔ 115292150461 ≤ r.blockEnergy ∧ e.limits.speechThreshold ≤ lv r.blockEnergy := by
  simp only [judgeTick, Bool.and_eq_true, decide_eq_true_iff]
  exact and_congr_left' decide_eq_true_iff

theorem judgeTick_covered_iff (e : Segment) (r : TickRecord) :
    (judgeTick e r).covered = true ↔
      r.stale = false ∧ (e.requirement = .any ∧ r.shownAny = true ∨ ∃ g, e.requirement = .tag g ∧ g ∈ r.shownTags) := by
  cases hreq : e.requirement with
  | none => simp [judgeTick, covers, hreq]
  | any => simp [judgeTick, covers, hreq, and_comm]
  | tag g => simp [judgeTick, covers, hreq, and_comm]

theorem judgeTick_wrong_iff (e : Segment) (r : TickRecord) :
    (judgeTick e r).wrong = true ↔ (judgeTick e r).speech = true ∧ ¬ (judgeTick e r).covered = true ∧ r.stale = false ∧
      r.shownTags ≠ [] ∧ ∃ g, e.requirement = .tag g := by
  cases hreq : e.requirement with
  | none => simp [judgeTick, Requirement.isTag, hreq]
  | any => simp [judgeTick, Requirement.isTag, hreq]
  | tag g => simp [judgeTick, Requirement.isTag, hreq, and_assoc]

theorem gapReset_iff (x : CaptionFeed) (h : Handle) (e : Segment) (m : Membership) (j : Judgement) :
    gapReset x h e m j = true ↔
      m.partStart = true ∨ m.itemStart = true ∨ x.previous ≠ some h ∨ e.requirement = .none ∨ j.covered = true := by
  simp [gapReset, or_assoc]

/-- Whether a tick advances the dead-air counter (R52). -/
def silentTick (r : TickRecord) : Bool := r.noInput || !activeBlock r.blockEnergy

theorem silentTick_iff (r : TickRecord) : silentTick r = true ↔ r.noInput = true ∨ r.blockEnergy < 115292150461 := by
  have hactive : activeBlock r.blockEnergy = true ↔ 115292150461 ≤ r.blockEnergy := decide_eq_true_iff
  rw [silentTick, Bool.or_eq_true, Bool.not_eq_true', ← Bool.not_eq_true, hactive, Nat.not_le]

/-! ## The three watches (R49 to R53) -/

section watches

variable (x : CaptionFeed) {h : Handle} {e : Segment} {n : Notice} {r : TickRecord} {j : Judgement} {t : Nat}

theorem gapWatch_of_reset (hreset : gapReset x h e n.membership j = true) :
    x.gapWatch h e n j = ({ x with previous := some h, gap := 0, gapReported := false }, false, false) := by
  simp only [CaptionFeed.gapWatch, if_pos hreset]

theorem gapWatch_of_quiet (hreset : ¬ gapReset x h e n.membership j = true) (hspeech : ¬ j.speech = true) :
    x.gapWatch h e n j = ({ x with previous := some h }, false, false) := by
  simp only [CaptionFeed.gapWatch, if_neg hreset, if_neg hspeech]

theorem gapWatch_of_speech (hreset : ¬ gapReset x h e n.membership j = true) (hspeech : j.speech = true) :
    x.gapWatch h e n j =
      ({ x with
          previous := some h
          gap := x.gap + 1
          gapStart := if x.gap = 0 then some n.tick else x.gapStart
          gapReported := x.gapReported || (decide (e.limits.maxGap ≤ x.gap + 1) && !x.gapReported) },
        true, decide (e.limits.maxGap ≤ x.gap + 1) && !x.gapReported) := by
  simp only [CaptionFeed.gapWatch, if_neg hreset, if_pos hspeech]

/-- When SUBTITLE_GAP is raised (R50). -/
theorem gapWatch_raised_iff :
    (x.gapWatch h e n j).2.2 = true ↔
      ¬ gapReset x h e n.membership j = true ∧ j.speech = true ∧ e.limits.maxGap ≤ x.gap + 1 ∧ x.gapReported = false := by
  by_cases hreset : gapReset x h e n.membership j = true
  · simp [gapWatch_of_reset x hreset, hreset]
  · by_cases hspeech : j.speech = true
    · simp [gapWatch_of_speech x hreset hspeech, hreset, hspeech]
    · simp [gapWatch_of_quiet x hreset hspeech, hspeech]

theorem carriageWatch_of_lost (hlost : e.requirement ≠ .none ∧ r.carriage = false) :
    x.carriageWatch e r = ({ x with carriageLost := true }, !x.carriageLost) := by
  simp [CaptionFeed.carriageWatch, hlost]

theorem carriageWatch_of_kept (hkept : ¬ (e.requirement ≠ .none ∧ r.carriage = false)) :
    x.carriageWatch e r = ({ x with carriageLost := false }, false) := by
  have : e.requirement = .none ∨ r.carriage = true := by simpa [or_iff_not_imp_left] using hkept
  simp only [CaptionFeed.carriageWatch, if_pos this]

/-- A limit of 0 would be reached by a counter just set to 0; R96 admits none. -/
theorem deadAirWatch_of_heard (hlim : e.limits.deadAir ≠ some 0) (hheard : ¬ silentTick r = true) :
    x.deadAirWatch e t r = ({ x with deadAir := 0, deadAirReported := false }, false) := by
  have hadvance : x.advanceDeadAir t r = { x with deadAir := 0, deadAirReported := false } := if_neg hheard
  rw [CaptionFeed.deadAirWatch, hadvance]
  cases hl : e.limits.deadAir with
  | none => rfl
  | some lim =>
    have hpos : lim ≠ 0 := fun h0 => hlim (by rw [hl, h0])
    simp [hpos]

theorem advanceDeadAir_of_silent (hsilent : silentTick r = true) :
    x.advanceDeadAir t r =
      { x with deadAir := x.deadAir + 1, deadAirStart := if x.deadAir = 0 then some t else x.deadAirStart } :=
  if_pos hsilent

theorem deadAirWatch_of_reached {lim : Nat} (hsilent : silentTick r = true) (hlim : e.limits.deadAir = some lim)
    (hreach : lim ≤ x.deadAir + 1) (hfirst : x.deadAirReported = false) :
    x.deadAirWatch e t r =
      ({ x with
          deadAir := x.deadAir + 1
          deadAirStart := if x.deadAir = 0 then some t else x.deadAirStart
          deadAirReported := true }, true) := by
  simp only [CaptionFeed.deadAirWatch, advanceDeadAir_of_silent x hsilent, hlim, if_pos (And.intro hreach hfirst)]

theorem deadAirWatch_of_unreached (hsilent : silentTick r = true)
    (hnot : e.limits.deadAir = none ∨ (∃ lim, e.limits.deadAir = some lim ∧ x.deadAir + 1 < lim) ∨ x.deadAirReported = true) :
    x.deadAirWatch e t r =
      ({ x with deadAir := x.deadAir + 1, deadAirStart := if x.deadAir = 0 then some t else x.deadAirStart }, false) := by
  rw [CaptionFeed.deadAirWatch, advanceDeadAir_of_silent x hsilent]
  cases hl : e.limits.deadAir with
  | none => rfl
  | some lim =>
    have hunreached : ¬ (lim ≤ x.deadAir + 1 ∧ x.deadAirReported = false) := by
      rintro ⟨hreach, hfirst⟩
      rcases hnot with hnone | ⟨lim', hlim', hbelow⟩ | hreported
      · cases hl.symm.trans hnone
      · cases hl.symm.trans hlim'
        exact absurd hreach (Nat.not_le.mpr hbelow)
      · cases hreported.symm.trans hfirst
    simp only [if_neg hunreached]

/-- A silent tick is counted, whether or not the limit is reached. -/
theorem deadAirWatch_counted (hsilent : silentTick r = true) :
    (x.deadAirWatch e t r).1.deadAir = x.deadAir + 1 ∧
      (x.deadAirWatch e t r).1.deadAirStart = (if x.deadAir = 0 then some t else x.deadAirStart) := by
  rw [CaptionFeed.deadAirWatch, advanceDeadAir_of_silent x hsilent]
  cases e.limits.deadAir with
  | none => exact ⟨rfl, rfl⟩
  | some lim => simp only; split <;> exact ⟨rfl, rfl⟩

/-! ### The watches do not touch one another -/

theorem gapWatch_frame :
    (x.gapWatch h e n j).1 = { x with
      gap := (x.gapWatch h e n j).1.gap
      gapStart := (x.gapWatch h e n j).1.gapStart
      gapReported := (x.gapWatch h e n j).1.gapReported
      previous := some h } := by
  unfold CaptionFeed.gapWatch
  simp only
  split
  · rfl
  · split <;> rfl

theorem carriageWatch_congr {y : CaptionFeed} (hy : y.carriageLost = x.carriageLost) :
    y.carriageWatch e r = ({ y with carriageLost := (x.carriageWatch e r).1.carriageLost }, (x.carriageWatch e r).2) := by
  unfold CaptionFeed.carriageWatch
  split
  · rfl
  · rw [hy]

theorem deadAirWatch_congr {y : CaptionFeed} (hd : y.deadAir = x.deadAir) (hs : y.deadAirStart = x.deadAirStart)
    (hr : y.deadAirReported = x.deadAirReported) :
    y.deadAirWatch e t r =
      ({ y with
          deadAir := (x.deadAirWatch e t r).1.deadAir
          deadAirStart := (x.deadAirWatch e t r).1.deadAirStart
          deadAirReported := (x.deadAirWatch e t r).1.deadAirReported }, (x.deadAirWatch e t r).2) := by
  obtain ⟨⟩ := x
  obtain ⟨⟩ := y
  subst hd hs hr
  unfold CaptionFeed.deadAirWatch CaptionFeed.advanceDeadAir
  cases e.limits.deadAir with
  | none => simp only; split <;> rfl
  | some lim => simp only; split <;> (simp only; split <;> rfl)

/-- Each watch reads and writes its own part of the feed's state, so each can be taken from the state before the notice. -/
theorem watches_eq :
    x.watches h e n r =
      ({ x with
          gap := (x.gapWatch h e n (judgeTick e r)).1.gap
          gapStart := (x.gapWatch h e n (judgeTick e r)).1.gapStart
          gapReported := (x.gapWatch h e n (judgeTick e r)).1.gapReported
          carriageLost := (x.carriageWatch e r).1.carriageLost
          deadAir := (x.deadAirWatch e n.tick r).1.deadAir
          deadAirStart := (x.deadAirWatch e n.tick r).1.deadAirStart
          deadAirReported := (x.deadAirWatch e n.tick r).1.deadAirReported
          previous := some h },
        (x.gapWatch h e n (judgeTick e r)).2.1, (x.gapWatch h e n (judgeTick e r)).2.2,
        (x.carriageWatch e r).2, (x.deadAirWatch e n.tick r).2) := by
  have hgap := gapWatch_frame x (h := h) (e := e) (n := n) (j := judgeTick e r)
  have hcarriage := carriageWatch_congr x (e := e) (r := r) (y := (x.gapWatch h e n (judgeTick e r)).1) (by rw [hgap])
  have hdead := deadAirWatch_congr x (e := e) (r := r) (t := n.tick)
    (y := ((x.gapWatch h e n (judgeTick e r)).1.carriageWatch e r).1)
    (by rw [hcarriage, hgap]) (by rw [hcarriage, hgap]) (by rw [hcarriage, hgap])
  simp only [CaptionFeed.watches]
  rw [hdead, hcarriage, hgap]

/-! ### What each watch leaves of a notice -/

variable {y : CaptionFeed} {counted raised lost dead : Bool} (hw : x.watches h e n r = (y, counted, raised, lost, dead))
include hw

theorem watches_frame :
    y = { x with
      gap := y.gap, gapStart := y.gapStart, gapReported := y.gapReported, carriageLost := y.carriageLost, deadAir := y.deadAir,
      deadAirStart := y.deadAirStart, deadAirReported := y.deadAirReported, previous := some h } := by
  rw [watches_eq] at hw
  cases hw
  rfl

theorem watches_of_reset (hreset : gapReset x h e n.membership (judgeTick e r) = true) :
    y.gap = 0 ∧ y.gapStart = x.gapStart ∧ y.gapReported = false ∧ counted = false := by
  rw [watches_eq, gapWatch_of_reset x hreset] at hw
  cases hw
  exact ⟨rfl, rfl, rfl, rfl⟩

theorem watches_of_quiet (hreset : ¬ gapReset x h e n.membership (judgeTick e r) = true)
    (hspeech : ¬ (judgeTick e r).speech = true) :
    y.gap = x.gap ∧ y.gapStart = x.gapStart ∧ y.gapReported = x.gapReported ∧ counted = false := by
  rw [watches_eq, gapWatch_of_quiet x hreset hspeech] at hw
  cases hw
  exact ⟨rfl, rfl, rfl, rfl⟩

theorem watches_of_speech (hreset : ¬ gapReset x h e n.membership (judgeTick e r) = true)
    (hspeech : (judgeTick e r).speech = true) :
    y.gap = x.gap + 1 ∧ y.gapStart = (if x.gap = 0 then some n.tick else x.gapStart) ∧
      y.gapReported = (x.gapReported || raised) ∧ counted = true := by
  rw [watches_eq, gapWatch_of_speech x hreset hspeech] at hw
  cases hw
  exact ⟨rfl, rfl, rfl, rfl⟩

theorem watches_raised_iff :
    raised = true ↔ ¬ gapReset x h e n.membership (judgeTick e r) = true ∧ (judgeTick e r).speech = true ∧
      e.limits.maxGap ≤ x.gap + 1 ∧ x.gapReported = false := by
  rw [watches_eq] at hw
  cases hw
  exact gapWatch_raised_iff x

theorem watches_of_lost (hlost : e.requirement ≠ .none ∧ r.carriage = false) :
    y.carriageLost = true ∧ lost = !x.carriageLost := by
  rw [watches_eq, carriageWatch_of_lost x hlost] at hw
  cases hw
  exact ⟨rfl, rfl⟩

theorem watches_of_kept (hkept : ¬ (e.requirement ≠ .none ∧ r.carriage = false)) :
    y.carriageLost = false ∧ lost = false := by
  rw [watches_eq, carriageWatch_of_kept x hkept] at hw
  cases hw
  exact ⟨rfl, rfl⟩

theorem watches_of_heard (hlim : e.limits.deadAir ≠ some 0) (hheard : ¬ silentTick r = true) :
    y.deadAir = 0 ∧ y.deadAirReported = false ∧ y.deadAirStart = x.deadAirStart ∧ dead = false := by
  rw [watches_eq, deadAirWatch_of_heard x hlim hheard] at hw
  cases hw
  exact ⟨rfl, rfl, rfl, rfl⟩

theorem watches_of_silent (hsilent : silentTick r = true) :
    y.deadAir = x.deadAir + 1 ∧ y.deadAirStart = (if x.deadAir = 0 then some n.tick else x.deadAirStart) := by
  rw [watches_eq] at hw
  cases hw
  exact deadAirWatch_counted x hsilent

theorem watches_of_reached {lim : Nat} (hsilent : silentTick r = true) (hlim : e.limits.deadAir = some lim)
    (hreach : lim ≤ y.deadAir) (hfirst : x.deadAirReported = false) : y.deadAirReported = true ∧ dead = true := by
  rw [(watches_of_silent x hw hsilent).1] at hreach
  rw [watches_eq, deadAirWatch_of_reached x hsilent hlim hreach hfirst] at hw
  cases hw
  exact ⟨rfl, rfl⟩

theorem watches_of_unreached (hsilent : silentTick r = true)
    (hnot : e.limits.deadAir = none ∨ (∃ lim, e.limits.deadAir = some lim ∧ y.deadAir < lim) ∨ x.deadAirReported = true) :
    y.deadAirReported = x.deadAirReported ∧ dead = false := by
  rw [(watches_of_silent x hw hsilent).1] at hnot
  rw [watches_eq, deadAirWatch_of_unreached x hsilent hnot] at hw
  cases hw
  exact ⟨rfl, rfl⟩

end watches

/-! ## The records of the tick's segments (R48) -/

/-- The Segment Table after a notice: a member tick for each segment of the membership, and the effective record's credits. -/
def creditedTable (table : List (Nat × Segment)) (m : Membership) (h : Handle) (credit : Segment → Segment) : List (Nat × Segment) :=
  tableUpdate (match m.level2 with
    | some i => creditMember (creditMember table m.level1) i
    | none => creditMember table m.level1) h.index credit

/-- A record with its member tick of the notice. -/
def withMember (e : Segment) : Segment := { e with memberTicks := e.memberTicks + 1 }

section records

variable {table : List (Nat × Segment)} {m : Membership} {h : Handle} {credit : Segment → Segment}

theorem creditMember_same {e : Segment} (ht : tableGet table h.index = some e) (ho : e.openTick = h.openTick) :
    tableGet (creditMember table h) h.index = some (withMember e) := by
  rw [creditMember, tableGet_update, if_pos rfl, ht, Option.map_some, if_pos ho]
  rfl

theorem creditMember_other {k : Nat} (hk : k ≠ h.index) : tableGet (creditMember table h) k = tableGet table k := by
  rw [creditMember, tableGet_update, if_neg hk]

/-- The effective record is credited once as a member, at its own level. -/
theorem creditedTable_effective {e : Segment} (hh : m.level2.getD m.level1 = h)
    (hd : ∀ i, m.level2 = some i → i.index ≠ m.level1.index) (ht : tableGet table h.index = some e)
    (ho : e.openTick = h.openTick) : tableGet (creditedTable table m h credit) h.index = some (credit (withMember e)) := by
  rw [creditedTable, tableGet_update, if_pos rfl]
  cases hl : m.level2 with
  | none =>
    obtain rfl : m.level1 = h := by simpa [hl] using hh
    simp only [creditMember_same ht ho, Option.map_some]
  | some i =>
    obtain rfl : i = h := by simpa [hl] using hh
    have ht' : tableGet (creditMember table m.level1) i.index = some e := (creditMember_other (hd i hl)).trans ht
    simp only [creditMember_same ht' ho, Option.map_some]

/-- Under an item the level-1 record gets its member tick and nothing else. -/
theorem creditedTable_level1 {b : Segment} (hl : m.level2 = some h) (hd : h.index ≠ m.level1.index)
    (ht : tableGet table m.level1.index = some b) (ho : b.openTick = m.level1.openTick) :
    tableGet (creditedTable table m h credit) m.level1.index = some (withMember b) := by
  rw [creditedTable, tableGet_update, if_neg hd.symm]
  simp only [hl, creditMember_other hd.symm, creditMember_same ht ho]

theorem creditedTable_other {k : Nat} (hh : m.level2.getD m.level1 = h) (hk : k ≠ h.index) (hk1 : k ≠ m.level1.index) :
    tableGet (creditedTable table m h credit) k = tableGet table k := by
  rw [creditedTable, tableGet_update, if_neg hk]
  cases hl : m.level2 with
  | none => exact creditMember_other hk1
  | some i =>
    obtain rfl : i = h := by simpa [hl] using hh
    exact (creditMember_other hk).trans (creditMember_other hk1)

end records

/-- A count raised by a fact is one more exactly where the fact holds. -/
theorem count_of_iff {p : Prop} {b : Bool} (hp : p ↔ b = true) (k : Nat) :
    (p → k + b.toNat = k + 1) ∧ (¬ p → k + b.toNat = k) := by
  cases b <;> simp_all

/-! ## The command (R44, R54) -/

section command

variable {f : Feed} {s : State} {n : Notice} {h : Handle}

/-- The effective record's credits for a tick, where the watches left `x` and answered the rest. -/
def creditBy (e : Segment) (r : TickRecord) (x : CaptionFeed) (counted raised dead : Bool) (z : Segment) : Segment :=
  z.credited (judgeTick e r) counted x.gap raised dead

theorem exec_settledTickNoticeCc {e : Segment} {r : TickRecord} {x : CaptionFeed} {counted raised lost dead : Bool}
    (hn : s.sg.noticeCc.get f = some n) (hh : n.membership.level2.getD n.membership.level1 = h)
    (ht : tableGet s.sg.table h.index = some e) (ho : e.openTick = h.openTick)
    (hr : recordAt (s.fiu.history.get f) n.tick = some r) (hw : (s.cc.feeds.get f).watches h e n r = (x, counted, raised, lost, dead)) :
    exec (.settledTickNoticeCc f) s = .next { s with
      cc := ⟨s.cc.feeds.set f x⟩
      sg := { s.sg with
        table := creditedTable s.sg.table n.membership h (creditBy e r x counted raised dead)
        noticeCc := s.sg.noticeCc.set f none }
      iu := { s.iu with reports := s.iu.reports ++ captionReports x h e n.tick raised lost dead } } := by
  have harm : exec (.settledTickNoticeCc f) s = execSettledTickNoticeCc f s := rfl
  have hseg : segmentAt s.sg.table h = some e := by simp only [segmentAt, ht, if_pos ho]
  simp only [harm, execSettledTickNoticeCc, hn, hh, hseg, captionNotice, Loudness.readHistory_of_recordAt hr, hw]
  rfl

/-- The DEAD_AIR report of a notice (R53, R54). -/
theorem deadAirReport_of_limit {e : Segment} {raise first last lim : Nat} {measured : Option Int}
    (hlim : e.limits.deadAir = some lim) :
    segmentReport .deadAir h e raise first last measured (e.limits.deadAir.map (fun (v : Nat) => (v : Int))) false =
      ⟨.deadAir, some e.feed, some h, e.segmentId, some (.segment e.kind), raise, first, last, measured, some (lim : Int), false⟩ := by
  rw [hlim]
  rfl

/-- A notice whose handle matches no record is dropped (R44). -/
theorem exec_settledTickNoticeCc_unmatched (hn : s.sg.noticeCc.get f = some n)
    (hh : n.membership.level2.getD n.membership.level1 = h)
    (hno : ∀ e, tableGet s.sg.table h.index = some e → e.openTick ≠ h.openTick) :
    exec (.settledTickNoticeCc f) s = .next { s with sg := { s.sg with noticeCc := s.sg.noticeCc.set f none } } := by
  have harm : exec (.settledTickNoticeCc f) s = execSettledTickNoticeCc f s := rfl
  have hseg : segmentAt s.sg.table h = none := by
    unfold segmentAt
    cases ht : tableGet s.sg.table h.index with
    | none => rfl
    | some e => exact if_neg (hno e ht)
  simp only [harm, execSettledTickNoticeCc, hn, hh, hseg]
  rfl

end command

/-- Settles O36: the three watches of the feed act apart, and the tick's credits reach the records of the membership. -/
theorem captionCheckerCreditsTheTick : Obligations.CaptionCheckerCreditsTheTick := by
  unfold Obligations.CaptionCheckerCreditsTheTick
  refine ⟨?unowed, ?effective, ?dropped⟩
  case unowed =>
    intro f s n e r hn hl ht ho hreq hlim hr _
    obtain ⟨⟨x, counted, raised, lost, dead⟩, hw⟩ : ∃ w, (s.cc.feeds.get f).watches n.membership.level1 e n r = w := ⟨_, rfl⟩
    have hh : n.membership.level2.getD n.membership.level1 = n.membership.level1 := by rw [hl]; rfl
    have hreset : gapReset (s.cc.feeds.get f) n.membership.level1 e n.membership (judgeTick e r) = true :=
      (gapReset_iff _ _ _ _ _).mpr (.inr (.inr (.inr (.inl hreq))))
    obtain ⟨hgap, -, hgapReported, -⟩ := watches_of_reset _ hw hreset
    have hraised : raised = false := by simpa [hreset] using watches_raised_iff _ hw
    obtain ⟨hcarriage, hlost⟩ := watches_of_kept _ hw (fun hne => hne.1 hreq)
    have hcovered : ¬ (judgeTick e r).covered = true := by simp [judgeTick, covers, hreq]
    have hwrong : (judgeTick e r).wrong = false := by simp [judgeTick, Requirement.isTag, hreq]
    subst hraised hlost
    refine ⟨_, x, _, exec_settledTickNoticeCc hn hh ht ho hr hw, rfl, Oct.get_set_same _ _ _,
      creditedTable_effective hh (by simp [hl]) ht ho, rfl, ?speech, ?covered, ?wrong, rfl, hgap, hgapReported, hcarriage,
      congrArg CaptionFeed.previous (watches_frame _ hw), ?heard, ?silent, rfl, rfl, rfl, rfl, rfl, rfl, rfl, rfl⟩
    case speech =>
      obtain ⟨hyes, hno⟩ := count_of_iff (judgeTick_speech_iff e r).symm e.speechTicks
      split
      · exact hyes ‹_›
      · exact hno ‹_›
    case covered => exact (count_of_iff (by simp [hcovered]) e.coveredTicks).2 hcovered
    case wrong => exact congrArg (e.wrongTicks + ·.toNat) hwrong
    case heard =>
      intro hinput hactive
      have hheard : ¬ silentTick r = true := by simp [silentTick_iff, hinput, hactive]
      obtain ⟨hdead, hreported, -, rfl⟩ := watches_of_heard _ hw hlim hheard
      exact ⟨hdead, hreported, congrArg (fun rs => { s.iu with reports := rs }) (List.append_nil _), rfl⟩
    case silent =>
      intro hsilent
      have hsilent := (silentTick_iff r).mpr hsilent
      refine ⟨(watches_of_silent _ hw hsilent).1, fun lim hl hreach hfirst => ?_⟩
      obtain ⟨hreported, rfl⟩ := watches_of_reached _ hw hsilent hl hreach hfirst
      exact ⟨hreported, rfl, congrArg (s.iu.reports ++ [·]) (deadAirReport_of_limit hl)⟩
  case effective =>
    intro f s n h e r old speech covered reset reached lost silent hn hh ht ho hlim hr _ hd hold hspeech hcovered hreset hreached
      hlost hsilent
    subst hold
    obtain rfl : speech = ((judgeTick e r).speech = true) := propext (hspeech.trans (judgeTick_speech_iff e r).symm)
    obtain rfl : covered = ((judgeTick e r).covered = true) := propext (hcovered.trans (judgeTick_covered_iff e r).symm)
    obtain rfl : reset = (gapReset (s.cc.feeds.get f) h e n.membership (judgeTick e r) = true) :=
      propext (hreset.trans (gapReset_iff _ _ _ _ _).symm)
    obtain rfl : silent = (silentTick r = true) := propext (hsilent.trans (silentTick_iff r).symm)
    obtain rfl : lost = (e.requirement ≠ .none ∧ r.carriage = false) := propext hlost
    have hh' : n.membership.level2.getD n.membership.level1 = h := by rw [hh]; cases n.membership.level2 <;> rfl
    obtain ⟨⟨x, counted, raised, carried, dead⟩, hw⟩ : ∃ w, (s.cc.feeds.get f).watches h e n r = w := ⟨_, rfl⟩
    obtain rfl : reached = (raised = true) := propext (hreached.trans (watches_raised_iff _ hw).symm)
    have hspeechCount := count_of_iff (Iff.refl ((judgeTick e r).speech = true)) e.speechTicks
    have hcoveredCount := count_of_iff (Bool.and_eq_true_iff (x := (judgeTick e r).speech) (y := (judgeTick e r).covered)).symm
      e.coveredTicks
    have hwrongCount := count_of_iff (judgeTick_wrong_iff e r).symm e.wrongTicks
    refine ⟨_, x, _, _, _, _, exec_settledTickNoticeCc hn hh' ht ho hr hw, rfl, watches_frame _ hw,
      creditedTable_effective hh' hd ht ho, rfl, ?level1, fun j => creditedTable_other hh', hspeechCount.1, hspeechCount.2,
      hcoveredCount.1, hcoveredCount.2, hwrongCount.1, hwrongCount.2, ?reset, ?quiet, ?speech, ?reached, ?unreached, ?lost,
      ?kept, ?heard, ?silent⟩
    case level1 =>
      intro b hitem hb hob
      obtain ⟨i, hi⟩ := Option.ne_none_iff_exists'.mp hitem
      obtain rfl : i = h := by simpa [hi] using hh'
      exact creditedTable_level1 hi (hd i hi) hb hob
    case reset =>
      intro hset
      obtain ⟨hgap, hstart, hreported, rfl⟩ := watches_of_reset _ hw hset
      exact ⟨hgap, hstart, hreported, rfl⟩
    case quiet =>
      intro hset hspeech
      obtain ⟨hgap, hstart, hreported, rfl⟩ := watches_of_quiet _ hw hset hspeech
      exact ⟨hgap, hstart, hreported, rfl⟩
    case speech =>
      intro hset hspeech
      obtain ⟨hgap, hstart, hreported, rfl⟩ := watches_of_speech _ hw hset hspeech
      refine ⟨hgap, hstart, rfl, fun hraised => ?_, fun hraised => ?_⟩
      · simp [hreported, hraised]
      · simp [hreported, hraised]
    case reached =>
      rintro rfl
      exact ⟨rfl, rfl⟩
    case unreached =>
      intro hraised
      obtain rfl : raised = false := Bool.eq_false_of_not_eq_true hraised
      exact ⟨rfl, rfl⟩
    case lost =>
      intro hlost
      obtain ⟨hx, rfl⟩ := watches_of_lost _ hw hlost
      refine ⟨hx, ?_⟩
      cases (s.cc.feeds.get f).carriageLost <;> rfl
    case kept =>
      intro hkept
      obtain ⟨hx, rfl⟩ := watches_of_kept _ hw hkept
      exact ⟨hx, rfl⟩
    case heard =>
      intro hheard
      obtain ⟨hdead, hreported, hstart, rfl⟩ := watches_of_heard _ hw hlim hheard
      exact ⟨hdead, hreported, hstart, rfl, rfl⟩
    case silent =>
      intro hsilent
      obtain ⟨hdead, hstart⟩ := watches_of_silent _ hw hsilent
      refine ⟨hdead, hstart, fun lim hl hreach hfirst => ?_, fun hnot => ?_⟩
      · obtain ⟨hreported, rfl⟩ := watches_of_reached _ hw hsilent hl hreach hfirst
        exact ⟨hreported, rfl, congrArg ([·]) (deadAirReport_of_limit hl)⟩
      · obtain ⟨hreported, rfl⟩ := watches_of_unreached _ hw hsilent hnot
        exact ⟨hreported, rfl, rfl⟩
  case dropped =>
    intro f s n h hn hh hno
    have hh' : n.membership.level2.getD n.membership.level1 = h := by rw [hh]; cases n.membership.level2 <;> rfl
    exact exec_settledTickNoticeCc_unmatched hn hh' hno

end Sys2Proof.Proofs.Subtitles
end

section

namespace Sys2Proof.Proofs.Schedule

open Sys2Proof Sys2Proof.Machine

/-!
# What the schedule rests on, and the commands that leave it alone

The invariants of chapter 4 read the Schedule Unit, the tick counters, the ticks handed over and settled, and the roles of the links.
`scheduleView` is that part of the state. One lemma for each operation that several commands share says that it keeps the view;
`exec_scheduleView` puts them together.
-/

/-- The roles of the links (R195). -/
def roles (li : Li) : Tri Role := li.links.map (·.role)

/-- The part of the state that the invariants of the schedule read (R64, R71, R75). -/
structure ScheduleView where
  su : Su
  openTick : Nat
  baseTick : Nat
  frontier : Option Nat
  settledTo : Oct (Option Nat)
  inbox : Oct (List HandedTick)
  roles : Tri Role

/-- The view of a state. -/
def scheduleView (s : State) : ScheduleView where
  su := s.su
  openTick := s.fiu.openTick
  baseTick := s.fiu.baseTick
  frontier := s.fiu.frontier
  settledTo := s.fiu.settledTo
  inbox := s.sg.inbox
  roles := roles s.li

theorem role_eq_of_roles {a b : Li} (h : roles a = roles b) (l : Link) : (a.links.get l).role = (b.links.get l).role := by
  have := congrArg (Tri.get · l) h
  simpa [roles] using this

/-- States with one view agree on all that the view names. -/
theorem scheduleView_eq_iff {s t : State} :
    scheduleView t = scheduleView s ↔ t.su = s.su ∧ t.fiu.openTick = s.fiu.openTick ∧ t.fiu.baseTick = s.fiu.baseTick ∧
      t.fiu.frontier = s.fiu.frontier ∧ t.fiu.settledTo = s.fiu.settledTo ∧ t.sg.inbox = s.sg.inbox ∧ roles t.li = roles s.li :=
  ScheduleView.mk.injEq .. ▸ Iff.rfl

/-! ## Roles -/

/-- A change of one link that keeps its role keeps all roles. -/
theorem roles_update {li : Li} {l : Link} {g : LinkState → LinkState} (hg : (g (li.links.get l)).role = (li.links.get l).role) :
    (li.links.update l g).map (·.role) = li.links.map (·.role) := by
  apply Tri.ext_get
  intro m
  rw [Tri.get_map, Tri.get_map, Tri.get_update]
  split
  · subst_vars
    exact hg
  · rfl

@[simp] theorem roles_raiseAll (li : Li) (k : AttentionClass) : roles (li.raiseAll k) = roles li := rfl

@[simp] theorem roles_raiseOn (li : Li) (l : Link) (k : AttentionClass) : roles (li.raiseOn l k) = roles li := roles_update rfl

@[simp] theorem roles_answer (li : Li) (l : Link) (k : Byte) (r : Reply) : roles (li.answer l k r) = roles li := roles_update rfl

@[simp] theorem roles_await (li : Li) (l : Link) (k : Byte) : roles (li.await l k) = roles li := roles_update rfl

/-! ## Replacing a block, reports, flags and replies -/

section blocks

variable (s : State)

@[simp] theorem view_withIu (x : Iu) : scheduleView (s.withIu x) = scheduleView s := rfl
@[simp] theorem view_withRu (x : Ru) : scheduleView (s.withRu x) = scheduleView s := rfl
@[simp] theorem view_withRc (x : Rc) : scheduleView (s.withRc x) = scheduleView s := rfl
@[simp] theorem view_withAc (x : Ac) : scheduleView (s.withAc x) = scheduleView s := rfl
@[simp] theorem view_withXu (x : Xu) : scheduleView (s.withXu x) = scheduleView s := rfl

theorem view_withLi {x : Li} (h : roles x = roles s.li) : scheduleView (s.withLi x) = scheduleView s :=
  scheduleView_eq_iff.mpr ⟨rfl, rfl, rfl, rfl, rfl, rfl, h⟩

theorem view_sendReport (r : Report) : scheduleView (s.sendReport r) = scheduleView s := rfl

theorem view_flagAll (k : AttentionClass) : scheduleView (s.flagAll k) = scheduleView s := rfl

theorem view_flagOn (l : Link) (k : AttentionClass) : scheduleView (s.flagOn l k) = scheduleView s :=
  view_withLi s (roles_raiseOn _ _ _)

theorem view_received {t : State} (h : scheduleView t = scheduleView s) : scheduleView (s.received t) = scheduleView s := by
  unfold State.received
  split
  · rfl
  · exact h

end blocks

/-! ## Requests -/

section requests

variable {α : Type} {k : Nat} {l : Link} {p : Payload α} {s : State} {body : α → State → State × Reply}

/-- What a request leaves is what its block left, but for the link's slot; a request that is refused or not received leaves the view. -/
theorem passRequest_keeps {P : State → Prop} (hP : ∀ {x y : State}, scheduleView y = scheduleView x → P x → P y)
    (hbody : ∀ a x, reachesKind (s.li.links.get l).role k = true → scheduleView x = scheduleView s → P (body a x).1) (hs : P s) :
    P (passRequest k l p s body) := by
  have answered : ∀ r, P (s.withLi (s.li.answer l (BitVec.ofNat 8 k) r)) := fun r => hP (view_withLi s (roles_answer _ _ _ _)) hs
  unfold passRequest State.received
  split
  · exact hs
  · split
    · rename_i hreach
      cases p with
      | wrongLength => exact answered _
      | fits a => exact hP (x := (body a (s.withLi (s.li.await l (BitVec.ofNat 8 k)))).1) rfl (hbody a _ hreach (view_withLi s (roles_await _ _ _)))
    · exact answered _

/-- What rests on the view alone and is kept by the block that takes a request is kept by the request's command. -/
theorem keeps_of_passRequest {P : State → Prop} {t : State} (hP : ∀ {x y : State}, scheduleView y = scheduleView x → P x → P y)
    (h : Host.Outcome.next (φ := Fault) (ρ := Refusal) (passRequest k l p s body) = .next t)
    (hbody : ∀ a x, reachesKind (x.li.links.get l).role k = true → P x → P (body a x).1) (hs : P s) : P t := by
  obtain rfl := Host.Outcome.next.inj h
  refine passRequest_keeps hP (fun a x hreach hx => hbody a x ?_ (hP hx hs)) hs
  rwa [role_eq_of_roles (congrArg ScheduleView.roles hx)]

/-- A request whose block leaves the view leaves it. -/
theorem view_passRequest (hbody : ∀ a x, scheduleView (body a x).1 = scheduleView x) :
    scheduleView (passRequest k l p s body) = scheduleView s :=
  passRequest_keeps (P := fun x => scheduleView x = scheduleView s) (fun hv hx => hv.trans hx) (fun a x _ hx => (hbody a x).trans hx) rfl

theorem view_answerRequest (hbody : ∀ a x, scheduleView (body a x).1 = scheduleView x) :
    scheduleView (answerRequest k l p s body) = scheduleView s := by
  unfold answerRequest
  apply view_received
  split
  · cases p with
    | wrongLength => exact view_withLi s (roles_answer _ _ _ _)
    | fits a => exact (view_withLi _ (roles_answer _ _ _ _)).trans (hbody a s)
  · exact view_withLi s (roles_answer _ _ _ _)

end requests

/-! ## The Recorder and the Archive Controller -/

section archive

variable (s : State)

theorem view_regroup (ac : Ac) : scheduleView (s.regroup ac) = scheduleView s := rfl

theorem view_unrecorded (c : Nat) : scheduleView (s.unrecorded c) = scheduleView s := by
  unfold State.unrecorded
  split <;> rfl

theorem view_grantWrite (w : PageWrite) : scheduleView (grantWrite s w) = scheduleView s := by
  unfold grantWrite
  split
  · exact view_unrecorded s _
  · split
    · exact view_unrecorded s _
    · unfold writeStep
      simp only
      split
      · rfl
      · exact view_unrecorded _ _

theorem view_writeDone (x : Access) (w : PageWrite) (p : Nat) : scheduleView (writeDone s x w p) = scheduleView s := by
  unfold writeDone
  simp only
  split
  · exact view_withAc s _
  · rw [view_withRc, view_withAc]

theorem view_writeTimedOut (w : PageWrite) : scheduleView (s.writeTimedOut w) = scheduleView s := by
  unfold State.writeTimedOut
  split
  · exact view_unrecorded s _
  · rfl

theorem view_requestWrite (c : Nat) : scheduleView (s.requestWrite c) = scheduleView s := by
  unfold State.requestWrite
  split <;> rfl

theorem view_noteDamage (p : Nat) (ns : List Note) : scheduleView (s.noteDamage p ns) = scheduleView s := by
  obtain ⟨d, rs, h, -⟩ := State.noteDamage_frame s p ns
  rw [h]
  rfl

theorem view_scrubChoice : scheduleView s.scrubChoice = scheduleView s := by
  unfold State.scrubChoice
  split
  · split <;> rfl
  · rfl

theorem view_grantScrub (r : ReadRequest) : scheduleView (grantScrub s r) = scheduleView s := by
  unfold grantScrub
  simp only
  split
  · split <;> rfl
  · rfl

theorem view_scrubDone (x : Access) (r : ReadRequest) (wrong : WrongLanes) : scheduleView (scrubDone s x r wrong) = scheduleView s := by
  unfold scrubDone
  simp only
  split
  · exact view_withAc s _
  · rw [view_noteDamage, view_withAc, view_withAc]

theorem view_testAdvance (x : TestPosition) (faulted : Bool) : scheduleView (s.testAdvance x faulted) = scheduleView s := by
  rcases State.testAdvance_cases s x faulted with ⟨y, h, -⟩ | h <;> rw [h] <;> rfl

theorem view_testWritten (x : Access) : scheduleView (testWritten s x) = scheduleView s := by
  unfold testWritten
  simp only
  split
  · exact view_withAc s _
  · split
    · rw [view_withAc, view_withAc]
    · exact view_withAc s _

theorem view_testRead (x : Access) (wrong : WrongLanes) : scheduleView (testRead s x wrong) = scheduleView s := by
  unfold testRead
  simp only
  split
  · exact view_withAc s _
  · split
    · rw [view_testAdvance, view_withAc, view_withAc]
    · rw [view_withAc, view_withAc]

theorem view_archiveMapTaken (bs : List Byte) : scheduleView (archiveMapTaken bs s).1 = scheduleView s := by
  unfold archiveMapTaken
  split
  · rfl
  · split <;> rfl

theorem view_archiveTestTaken (u : Unit) : scheduleView (archiveTestTaken u s).1 = scheduleView s := by
  unfold archiveTestTaken
  split <;> rfl

theorem view_archiveRecordTaken (u : Unit) : scheduleView (archiveRecordTaken u s).1 = scheduleView s := by
  unfold archiveRecordTaken
  split <;> rfl

theorem view_spareLaneTaken (a : SpareLaneSetArgs) : scheduleView (spareLaneTaken a s).1 = scheduleView s := by
  unfold spareLaneTaken
  split
  · split
    · rfl
    · split <;> rfl
  · rfl

theorem view_archiveReadTaken (a : ArchiveReadArgs) : scheduleView (archiveReadTaken a s).1 = scheduleView s := by
  unfold archiveReadTaken
  split <;> rfl

end archive

/-! ## Feeds, Level Meter and Caption Checker -/

section feeds

variable (s : State)

theorem view_takePacket (f : Feed) (p : Packet) : scheduleView (takePacket s f p) = scheduleView s := by
  unfold takePacket
  split <;> rfl

theorem view_feedSetTaken (a : FeedSetArgs) : scheduleView (feedSetTaken a s).1 = scheduleView s := by
  unfold feedSetTaken
  split <;> rfl

theorem view_meterTaken (b : Byte) : scheduleView (meterTaken b s).1 = scheduleView s := by
  unfold meterTaken
  split <;> rfl

end feeds

/-! ## The Segment Unit -/

section segments

variable (s : State)

theorem view_segmentReadTaken (a : SegmentReadArgs) : scheduleView (segmentReadTaken a s).1 = scheduleView s := by
  unfold segmentReadTaken
  split
  · rfl
  · split
    · rfl
    · split <;> rfl

theorem view_segmentListTaken (a : SegmentListArgs) : scheduleView (segmentListTaken a s).1 = scheduleView s := by
  unfold segmentListTaken
  simp only
  split
  · rfl
  · split <;> rfl

theorem view_limitsWriteTaken (a : LimitsWriteArgs) : scheduleView (limitsWriteTaken a s).1 = scheduleView s := by
  unfold limitsWriteTaken
  split <;> rfl

theorem view_limitsReadTaken (b : Byte) : scheduleView (limitsReadTaken b s).1 = scheduleView s := by
  unfold limitsReadTaken
  split <;> rfl

theorem view_judgeRecord (t : Nat) (e : Nat × Segment) : scheduleView (s.judgeRecord t e) = scheduleView s := by
  unfold State.judgeRecord
  simp only
  split <;> rfl

theorem view_judgeRecords (t : Nat) (es : List (Nat × Segment)) :
    scheduleView (es.foldl (fun x e => x.judgeRecord t e) s) = scheduleView s := by
  induction es generalizing s with
  | nil => rfl
  | cons e es ih => exact (ih _).trans (view_judgeRecord s t e)

theorem view_closeFound (found : Option (Nat × Segment)) (cause : AnnounceKind × Nat) :
    scheduleView (s.closeFound found cause) = scheduleView s := by
  cases found <;> rfl

theorem view_closeItem (f : Feed) (cause : AnnounceKind × Nat) : scheduleView (s.closeItem f cause) = scheduleView s :=
  view_closeFound s _ cause

theorem view_closeLevel1 (f : Feed) (cause : AnnounceKind × Nat) : scheduleView (s.closeLevel1 f cause) = scheduleView s :=
  view_closeFound s _ cause

theorem view_closeSuspended (f : Feed) (cause : AnnounceKind × Nat) : scheduleView (s.closeSuspended f cause) = scheduleView s :=
  view_closeFound s _ cause

theorem view_updateSegment (i : Nat) (g : Segment → Segment) : scheduleView (s.updateSegment i g) = scheduleView s := rfl

variable {s} {t : State} {f : Feed} {u : Nat}

theorem view_openSegment {o : Opening} (h : s.openSegment f u o = some t) : scheduleView t = scheduleView s := by
  obtain ⟨i, table, -, rfl⟩ := State.openSegment_some h
  rfl

theorem view_applyFirst {e : Option Entry} (h : applyFirst s f u e = some t) : scheduleView t = scheduleView s := by
  unfold applyFirst at h
  split at h
  · exact view_openSegment h
  · split at h <;> exact view_openSegment h

theorem view_applyProgramme {e : Entry} {cur : Nat × Segment} {b : Bool} (h : applyProgramme s f u e cur = some (t, b)) :
    scheduleView t = scheduleView s := by
  unfold applyProgramme at h
  simp only at h
  split at h
  · cases h
    rfl
  · split at h
    · split at h
      · cases h
        rw [view_updateSegment, view_closeLevel1, view_closeItem]
      · obtain ⟨x, hx, hxt⟩ := Option.map_eq_some_iff.mp h
        cases hxt
        rw [view_openSegment hx, view_closeSuspended, view_closeLevel1, view_closeItem]
    · obtain ⟨x, hx, hxt⟩ := Option.map_eq_some_iff.mp h
      cases hxt
      rw [view_openSegment hx, view_closeLevel1, view_closeItem]

theorem view_applyBreak {e : Entry} {cur : Nat × Segment} (h : applyBreak s f u e cur = some t) : scheduleView t = scheduleView s := by
  unfold applyBreak at h
  simp only at h
  rw [view_openSegment h]
  split
  · rw [view_updateSegment, view_closeItem]
  · rw [view_closeLevel1, view_closeItem]

theorem view_applyEnd {e : Entry} (h : applyEnd s f u e = some t) : scheduleView t = scheduleView s := by
  unfold applyEnd at h
  rw [view_openSegment h, view_closeSuspended, view_closeLevel1, view_closeItem]

theorem view_applyLevel1 {e : Option Entry} {b : Bool} (h : applyLevel1 s f u e = some (t, b)) : scheduleView t = scheduleView s := by
  unfold applyLevel1 at h
  split at h
  · obtain ⟨x, hx, hxt⟩ := Option.map_eq_some_iff.mp h
    cases hxt
    exact view_applyFirst hx
  · split at h
    · cases h
      rfl
    · split at h
      · exact view_applyProgramme h
      · obtain ⟨x, hx, hxt⟩ := Option.map_eq_some_iff.mp h
        cases hxt
        exact view_applyBreak hx
      · obtain ⟨x, hx, hxt⟩ := Option.map_eq_some_iff.mp h
        cases hxt
        exact view_applyEnd hx
      · cases h
        rfl

theorem view_applyItem {e : Entry} {cur : Nat × Segment} (h : applyItem s f u e cur = some t) : scheduleView t = scheduleView s := by
  unfold applyItem at h
  split at h
  · obtain ⟨x, hx, rfl⟩ := Option.map_eq_some_iff.mp h
    rw [view_updateSegment, view_openSegment hx, view_closeItem]
  · cases h
    rfl

theorem view_applyLevel2 {e : Option Entry} (h : applyLevel2 s f u e = some t) : scheduleView t = scheduleView s := by
  unfold applyLevel2 at h
  split at h
  · cases h
    rfl
  · cases h
    rfl
  · split at h
    · exact view_applyItem h
    · cases h
      exact view_closeItem s f _
    · cases h
      rfl

/-- A settlement changes of the view the frontier, the ticks settled and the ticks that wait to be settled. -/
theorem view_settleTick {ht : HandedTick} {rest : List HandedTick} (h : settleTick s f ht rest = some t) :
    scheduleView t = { scheduleView s with
      frontier := t.fiu.frontier, settledTo := t.fiu.settledTo, inbox := t.sg.inbox } := by
  unfold settleTick at h
  split at h
  · cases h
  · rename_i s1 resumed h1
    split at h
    · cases h
    · rename_i s2 h2
      obtain ⟨l1, -, rfl⟩ := Option.map_eq_some_iff.mp h
      rw [← view_applyLevel1 h1, ← view_applyLevel2 h2]
      rfl

end segments

/-! ## The Incident Unit and the Retention Unit -/

section incidents

variable (s : State)

theorem view_makeRoom : scheduleView s.makeRoom = scheduleView s := by
  rcases State.makeRoom_cases s with h | ⟨r, -, -, -, h⟩ <;> rw [h]
  rfl

theorem view_raiseIncident (p : PolicyEntry) (r : Report) : scheduleView (s.raiseIncident p r) = scheduleView s := by
  rcases State.raiseIncident_cases s p r with ⟨x, -, -, -, h⟩ | ⟨x, i, hold, c, -, -, -, -, h⟩ <;>
    rw [h] <;> exact view_makeRoom s

theorem view_handleReport (r : Report) : scheduleView (s.handleReport r) = scheduleView s := by
  unfold State.handleReport
  simp only
  split
  · rfl
  · exact view_raiseIncident s _ r

theorem view_policyWriteTaken (a : PolicyWriteArgs) : scheduleView (policyWriteTaken a s).1 = scheduleView s := by
  unfold policyWriteTaken
  split <;> rfl

theorem view_policyReadTaken (b : Byte) : scheduleView (policyReadTaken b s).1 = scheduleView s := by
  unfold policyReadTaken
  split <;> rfl

theorem view_incidentFetchTaken (l : Link) (start : Option (BitVec 32)) :
    scheduleView (incidentFetchTaken l start s).1 = scheduleView s := by
  unfold incidentFetchTaken
  split
  · rfl
  · split <;> rfl

theorem view_incidentReviewTaken (a : IncidentReviewArgs) : scheduleView (incidentReviewTaken a s).1 = scheduleView s := by
  unfold incidentReviewTaken
  split
  · rfl
  · split
    · rfl
    · rfl
    · split
      · rfl
      · unfold reviewOpen
        split <;> rfl

theorem view_holdPlaceTaken (l : Link) (a : HoldPlaceArgs) : scheduleView (holdPlaceTaken l a s).1 = scheduleView s := by
  unfold holdPlaceTaken
  split <;> rfl

theorem view_holdReleaseTaken (a : HoldReleaseArgs) : scheduleView (holdReleaseTaken a s).1 = scheduleView s := by
  unfold holdReleaseTaken
  split
  · rfl
  · split
    · rfl
    · split
      · rfl
      · unfold releaseByOwner
        simp only
        split <;> rfl

theorem view_holdListTaken (b : Byte) : scheduleView (holdListTaken b s).1 = scheduleView s := by
  unfold holdListTaken
  split <;> rfl

end incidents

/-! ## The Export Unit -/

section exports

variable (s : State)

theorem view_lookup (j : Job) : scheduleView (s.lookup j) = scheduleView s := by
  obtain ⟨x, r, h⟩ := State.lookup_frame s j
  rw [h]
  rfl

theorem view_activate : scheduleView s.activate = scheduleView s := by
  obtain ⟨x, r, h⟩ := State.activate_frame s
  rw [h]
  rfl

theorem view_endJob (j : Job) (st : EndStatus) : scheduleView (s.endJob j st) = scheduleView s := by
  unfold State.endJob
  rw [view_flagOn, view_withXu, view_withRu]

theorem view_endActive (j : Job) (st : EndStatus) : scheduleView (s.endActive j st) = scheduleView s := by
  unfold State.endActive
  rw [view_activate, view_withXu, view_endJob]

theorem view_stall : scheduleView s.stall = scheduleView s := by
  unfold State.stall
  split
  · rfl
  · exact view_endActive s _ _

theorem view_stallFirst : scheduleView s.stallFirst = scheduleView s := by
  unfold State.stallFirst
  split
  · exact view_stall s
  · rfl

theorem view_recordDone (j : Job) (b : Buffered) (rest : List (Feed × Buffered)) :
    scheduleView (recordDone s j b rest) = scheduleView s := by
  unfold recordDone
  simp only
  split
  · rw [view_endActive, view_withXu]
  · split
    · rfl
    · split
      · rw [view_endActive, view_withXu]
      · rw [view_lookup, view_withXu]

theorem view_strobe (rest : List (BitVec 16)) : scheduleView (strobe s rest) = scheduleView s := by
  unfold strobe
  simp only
  split
  · rfl
  · split
    · rw [view_recordDone, view_withXu]
    · rfl

theorem view_deliver (r : ReadRequest) (rs : List (Nat × WordRead)) : scheduleView (s.deliver r rs) = scheduleView s := by
  unfold State.deliver
  split
  · rfl
  · split
    · exact view_endActive s _ _
    · rfl

theorem view_grantExport (r : ReadRequest) : scheduleView (grantExport s r) = scheduleView s := by
  unfold grantExport
  simp only
  split <;> split <;> rfl

theorem view_exportReadDone (x : Access) (r : ReadRequest) (wrong : WrongLanes) :
    scheduleView (exportReadDone s x r wrong) = scheduleView s := by
  unfold exportReadDone
  simp only
  split
  · rfl
  · rw [view_deliver, view_noteDamage, view_withAc, view_withAc]

theorem view_queueJob (j : Job) : scheduleView (s.queueJob j) = scheduleView s := by
  unfold State.queueJob
  simp only
  split
  · rw [view_activate, view_withXu, view_withXu]
  · rfl

theorem view_exportStartTaken (l : Link) (a : ExportStartArgs) : scheduleView (exportStartTaken l a s).1 = scheduleView s := by
  unfold exportStartTaken
  simp only
  split
  · exact view_stallFirst s
  · split
    · exact view_stallFirst s
    · split
      · unfold pinAndQueue
        split
        · exact view_stallFirst s
        · split
          · exact view_stallFirst s
          · exact view_stallFirst s
          · rw [view_queueJob, view_withRu, view_stallFirst]
      · exact view_stallFirst s

theorem view_abortActive (j : Job) : scheduleView (abortActive s j) = scheduleView s := by
  unfold abortActive
  split
  · rfl
  · split
    · rfl
    · rfl
    · split
      · exact view_endActive _ _ _
      · rfl
    · exact view_endActive s _ _
    · exact view_endActive s _ _

theorem view_exportAbortTaken (b : BitVec 32) : scheduleView (exportAbortTaken b s).1 = scheduleView s := by
  unfold exportAbortTaken
  simp only
  split
  · exact view_stallFirst s
  · split
    · rw [view_abortActive, view_stallFirst]
    · split
      · rw [view_endJob, view_stallFirst]
      · exact view_stallFirst s

theorem view_notePartDamage (x : Access) (ns : List Note) : scheduleView (s.notePartDamage x ns) = scheduleView s := by
  unfold State.notePartDamage
  split
  · exact view_noteDamage s _ _
  · rfl

theorem view_timeoutGroup (g : Group) : scheduleView (s.timeoutGroup g) = scheduleView s := by
  unfold State.timeoutGroup
  split <;> rfl

theorem view_tellTimeout (x : Access) (rs : List (Nat × WordRead)) : scheduleView (s.tellTimeout x rs) = scheduleView s := by
  unfold State.tellTimeout
  split
  · exact view_writeTimedOut s _
  · exact view_deliver s _ _
  · rfl
  · split
    · exact view_testAdvance s _ _
    · rfl
  · split
    · exact view_testAdvance s _ _
    · rfl

theorem view_timeoutAccess (x : Access) (n : Nat) (wrong : WrongLanes) :
    scheduleView (timeoutAccess s x n wrong) = scheduleView s := by
  unfold timeoutAccess
  simp only
  split
  · exact view_withAc s _
  · rw [view_tellTimeout, view_timeoutGroup, view_notePartDamage, view_withAc, view_withAc]

theorem view_abortAll (js : List Job) : scheduleView (s.abortAll js) = scheduleView s := by
  unfold State.abortAll
  induction js generalizing s with
  | nil => rfl
  | cons j js ih => exact (ih _).trans (view_endJob s j _)

theorem view_resetExports : scheduleView s.resetExports = scheduleView s := by
  unfold State.resetExports
  split
  · rfl
  · split
    · rw [view_abortAll, view_withXu]
    · exact view_abortAll s _

theorem view_archiveResetTaken (u : Unit) : scheduleView (archiveResetTaken u s).1 = scheduleView s := by
  unfold archiveResetTaken
  simp only
  split
  · exact view_stallFirst s
  · rw [view_flagAll, view_resetExports, view_withIu, view_withRc, view_regroup, view_withRu, view_stallFirst]

end exports

/-! ## The Link Interface -/

section links

variable (s : State)

theorem view_updateLink (l : Link) (replies : List ReplyInFlight) (g : LinkState → LinkState) (hg : ∀ x, (g x).role = x.role) :
    scheduleView (s.withLi { s.li with replies := replies, links := s.li.links.update l g }) = scheduleView s :=
  view_withLi s (roles_update (hg _))

theorem view_attentionClearTaken (l : Link) (b : Byte) : scheduleView (attentionClearTaken l b s).1 = scheduleView s :=
  view_updateLink s l s.li.replies _ (fun _ => rfl)

theorem attentionTarget_role {n : Nat} {v : Bool} {x y : LinkState} (h : attentionTarget n v x = some y) : y.role = x.role := by
  unfold attentionTarget at h
  split at h <;> cases h <;> rfl

theorem view_attentionSetTaken (l : Link) (a : AttentionSetArgs) : scheduleView (attentionSetTaken l a s).1 = scheduleView s := by
  unfold attentionSetTaken
  split
  · rfl
  · rename_i x hx
    obtain ⟨v, -, hv⟩ := Option.bind_eq_some_iff.mp hx
    exact view_withLi s (roles_update (g := fun _ => x) (attentionTarget_role hv))

end links

end Sys2Proof.Proofs.Schedule
end

section

namespace Sys2Proof.Proofs.Schedule

open Sys2Proof Sys2Proof.Machine

/-!
# Commands, tick closes and the schedule's view

Which commands can change the schedule's view at all, and what a tick close does to the Schedule Unit and to the roles (R66, R75).
-/

/-- The commands that can act on the Schedule Unit, the tick counters, the settled ticks or the roles. -/
def actsOnSchedule : Instr → Bool
  | .powerOn _ | .resetPin _ | .tickClose _ | .heartbeatLapse | .settlement _ | .status _ _ | .scheduleClaim _ _
  | .scheduleYield _ _ | .timeSync _ _ | .announce _ _ | .withdraw _ _ | .heartbeatSet _ _ | .measureRestart _ _ => true
  | _ => false

theorem view_of_next {s t u : State} (h : Host.Outcome.next (φ := Fault) (ρ := Refusal) u = .next t) (hu : scheduleView u = scheduleView s) :
    scheduleView t = scheduleView s := Host.Outcome.next.inj h ▸ hu

theorem exec_scheduleView {c : Instr} {s t : State} (hc : actsOnSchedule c = false) (h : exec c s = .next t) :
    scheduleView t = scheduleView s := by
  cases c with
  | powerOn _ | resetPin _ | tickClose _ | heartbeatLapse | settlement _ | status _ _ | scheduleClaim _ _ | scheduleYield _ _
  | timeSync _ _ | announce _ _ | withdraw _ _ | heartbeatSet _ _ | measureRestart _ _ => cases hc
  | wordClockPeriod frames =>
    obtain rfl := Host.Outcome.next.inj h
    split <;> rfl
  | laneLock f =>
    obtain rfl := Host.Outcome.next.inj h
    split <;> rfl
  | captionPacket p =>
    obtain rfl := Host.Outcome.next.inj h
    split
    · exact view_takePacket s _ p
    · rfl
  | captionStale f =>
    obtain rfl := Host.Outcome.next.inj h
    split
    · split <;> rfl
    · rfl
  | carriageAbsent f =>
    obtain rfl := Host.Outcome.next.inj h
    split <;> rfl
  | settledTickNoticeLm f =>
    obtain rfl := Host.Outcome.next.inj h
    split <;> rfl
  | settledTickNoticeCc f =>
    obtain rfl := Host.Outcome.next.inj h
    split
    · rfl
    · simp only
      split <;> rfl
  | verdict f =>
    obtain rfl := Host.Outcome.next.inj h
    split
    · exact view_judgeRecords s _ _
    · rfl
  | incidentReport n =>
    obtain rfl := Host.Outcome.next.inj h
    split
    · rfl
    · rw [view_handleReport, view_withIu]
  | recordWriteGrant =>
    obtain rfl := Host.Outcome.next.inj h
    split
    · rw [view_grantWrite, view_withRc]
    · rfl
  | recordWriteCompletion =>
    obtain rfl := Host.Outcome.next.inj h
    split
    · split
      · exact view_writeDone s _ _ _
      · rfl
    · rfl
  | accessTimeout words wrong =>
    obtain rfl := Host.Outcome.next.inj h
    split
    · exact view_timeoutAccess s _ _ _
    · rfl
  | scrubReadGrant =>
    obtain rfl := Host.Outcome.next.inj h
    split
    · exact view_grantScrub s _
    · rfl
  | scrubReadCompletion wrong =>
    obtain rfl := Host.Outcome.next.inj h
    split
    · split
      · exact view_scrubDone s _ _ _
      · rfl
    · rfl
  | exportReadGrant =>
    obtain rfl := Host.Outcome.next.inj h
    split
    · exact view_grantExport s _
    · rfl
  | exportReadCompletion wrong =>
    obtain rfl := Host.Outcome.next.inj h
    split
    · split
      · exact view_exportReadDone s _ _ _
      · rfl
    · rfl
  | testAccessGrant =>
    obtain rfl := Host.Outcome.next.inj h
    split
    · split <;> rfl
    · rfl
  | testAccessCompletion wrong =>
    obtain rfl := Host.Outcome.next.inj h
    split
    · split
      · exact view_testWritten s _
      · exact view_testRead s _ _
      · rfl
    · rfl
  | exportStrobe =>
    obtain rfl := Host.Outcome.next.inj h
    split
    · rfl
    · split
      · rfl
      · exact view_strobe s _
  | exportStall =>
    obtain rfl := Host.Outcome.next.inj h
    split
    · exact view_stall s
    · rfl
  | frameError l bytes =>
    obtain rfl := Host.Outcome.next.inj h
    split
    · exact view_received s (view_updateLink s l s.li.replies _ (fun _ => rfl))
    · rfl
  | unknownRequest l kind payload =>
    obtain rfl := Host.Outcome.next.inj h
    split
    · exact view_received s (view_withLi s (roles_answer _ _ _ _))
    · rfl
  | replyArrival n =>
    obtain rfl := Host.Outcome.next.inj h
    split
    · rfl
    · exact view_updateLink s _ _ _ (fun _ => rfl)
  | fetch l payload clocked =>
    obtain rfl := Host.Outcome.next.inj h
    split
    · exact view_received s (view_updateLink s l s.li.replies _ (fun _ => rfl))
    · rfl
  | meter l p => exact view_of_next h (view_passRequest fun a x => view_meterTaken x a)
  | segmentRead l p => exact view_of_next h (view_passRequest fun a x => view_segmentReadTaken x a)
  | segmentList l p => exact view_of_next h (view_passRequest fun a x => view_segmentListTaken x a)
  | incidentFetch l p => exact view_of_next h (view_passRequest fun a x => view_incidentFetchTaken x l a)
  | holdList l p => exact view_of_next h (view_passRequest fun a x => view_holdListTaken x a)
  | limitsRead l p => exact view_of_next h (view_passRequest fun a x => view_limitsReadTaken x a)
  | policyRead l p => exact view_of_next h (view_passRequest fun a x => view_policyReadTaken x a)
  | archiveRead l p => exact view_of_next h (view_passRequest fun a x => view_archiveReadTaken x a)
  | captureRead l p => exact view_of_next h (view_passRequest fun _ _ => rfl)
  | attentionSet l p => exact view_of_next h (view_answerRequest fun a x => view_attentionSetTaken x l a)
  | attentionClear l p => exact view_of_next h (view_answerRequest fun a x => view_attentionClearTaken x l a)
  | limitsWrite l p => exact view_of_next h (view_passRequest fun a x => view_limitsWriteTaken x a)
  | policyWrite l p => exact view_of_next h (view_passRequest fun a x => view_policyWriteTaken x a)
  | feedSet l p => exact view_of_next h (view_passRequest fun a x => view_feedSetTaken x a)
  | holdPlace l p => exact view_of_next h (view_passRequest fun a x => view_holdPlaceTaken x l a)
  | holdRelease l p => exact view_of_next h (view_passRequest fun a x => view_holdReleaseTaken x a)
  | incidentReview l p => exact view_of_next h (view_passRequest fun a x => view_incidentReviewTaken x a)
  | exportStart l p => exact view_of_next h (view_passRequest fun a x => view_exportStartTaken x l a)
  | exportAbort l p => exact view_of_next h (view_passRequest fun a x => view_exportAbortTaken x a)
  | captureClear l p => exact view_of_next h (view_passRequest fun _ _ => rfl)
  | archiveMap l groups => exact view_of_next h (view_passRequest fun a x => view_archiveMapTaken x a)
  | archiveTest l p => exact view_of_next h (view_passRequest fun a x => view_archiveTestTaken x a)
  | archiveRecord l p => exact view_of_next h (view_passRequest fun a x => view_archiveRecordTaken x a)
  | archiveReset l p => exact view_of_next h (view_passRequest fun a x => view_archiveResetTaken x a)
  | spareLaneSet l p => exact view_of_next h (view_passRequest fun a x => view_spareLaneTaken x a)

/-- What every command keeps, and what rests on the view alone, every step keeps. -/
theorem step_keeps {P : State → Prop} (hP : ∀ {x y : State}, scheduleView y = scheduleView x → P x → P y)
    (hexec : ∀ {c : Instr} {x y : State}, P x → exec c x = .next y → P y) {s t : State} (hs : P s) (h : step s = .next t) : P t := by
  unfold step at h
  split at h
  · exact Host.Outcome.next.inj h ▸ hs
  · rename_i rest _
    exact hexec (hP (x := s) (y := { s with pending := rest }) rfl hs) h

/-- A settlement that is not due changes nothing; one that is takes a tick that waits, and moves of the view the settled ticks and those that wait (R9). -/
theorem execSettlement_cases {f : Feed} {s t : State} (h : execSettlement f s = .next t) :
    t = s ∨ (s.sg.inbox.get f ≠ [] ∧ t.su = s.su ∧ t.fiu.openTick = s.fiu.openTick ∧ t.fiu.baseTick = s.fiu.baseTick ∧
      roles t.li = roles s.li) := by
  unfold execSettlement at h
  split at h
  · exact .inl (Host.Outcome.next.inj h).symm
  · rename_i ht rest hinbox
    split at h
    · split at h
      · rename_i hset
        obtain rfl := Host.Outcome.next.inj h
        have hv := view_settleTick hset
        exact .inr ⟨hinbox ▸ List.cons_ne_nil ht rest, congrArg ScheduleView.su hv, congrArg ScheduleView.openTick hv,
          congrArg ScheduleView.baseTick hv, congrArg ScheduleView.roles hv⟩
      · cases h
    · exact .inl (Host.Outcome.next.inj h).symm

/-! ## A due lapse and a tick close -/

section closing

variable (s : State)

theorem view_lapse : scheduleView s.lapse = scheduleView (s.withSu { s.su with owner := none, timer := 0, lapseDue := false }) := rfl

theorem lapseFirst_cases : s.lapseFirst = s.lapse ∨ s.lapseFirst = s := by
  unfold State.lapseFirst
  split
  · exact .inl rfl
  · exact .inr rfl

/-- A close up to the opening of the next tick, before anything of the schedule moves. -/
def beforeOpening (s : State) : State :=
  ((s.captionsAtClose s.fiu.openTick).closeRecords s.fiu.openTick).requestWrite s.fiu.openTick

theorem view_beforeOpening : scheduleView (beforeOpening s) = scheduleView s := by
  unfold beforeOpening
  rw [view_requestWrite]
  unfold State.closeRecords
  split <;> rfl

theorem view_openTick : scheduleView s.openTick = { scheduleView s with openTick := s.fiu.openTick + 1 } := rfl

/-- Of the schedule's view a close moves the tick counter, hands over and counts the heartbeat (R7, R66, R75). -/
theorem view_closeTick (xbsy : Bool) :
    ∃ y, y = (beforeOpening s.lapseFirst.stallFirst).openTick.handOverAt s.lapseFirst.fiu.openTick ∧
      scheduleView (closeTick s xbsy) = scheduleView (y.withSu y.su.timerAtClose) := by
  have hc : s.lapseFirst.stallFirst.fiu.openTick = s.lapseFirst.fiu.openTick :=
    congrArg ScheduleView.openTick (view_stallFirst s.lapseFirst)
  refine ⟨_, rfl, ?_⟩
  unfold closeTick
  simp only
  rw [view_withXu, view_scrubChoice, ← hc]
  rfl

/-- Owner, timer, limit and anchor stand through an opening and a hand-over; the roles stand as well. -/
theorem handOverAt_keeps (c : Nat) :
    ∃ lists recent handed, (s.handOverAt c).su = { s.su with lists := lists, recent := recent, handed := handed } ∧
      (s.handOverAt c).li = s.li := by
  unfold State.handOverAt
  split
  · exact ⟨_, _, _, rfl, rfl⟩
  · exact ⟨s.su.lists, s.su.recent, s.su.handed, rfl, rfl⟩

/-- What a close does to owner, timer and due lapse is the count of the heartbeat alone (R66); roles stand (R195). -/
theorem closeTick_su (xbsy : Bool) :
    ∃ x : Su, (closeTick s xbsy).su = x.timerAtClose ∧
      x = { s.lapseFirst.su with lists := x.lists, recent := x.recent, handed := x.handed } ∧
      roles (closeTick s xbsy).li = roles s.lapseFirst.li := by
  obtain ⟨y, rfl, hy⟩ := view_closeTick s xbsy
  have hv : scheduleView (beforeOpening s.lapseFirst.stallFirst) = scheduleView s.lapseFirst :=
    (view_beforeOpening _).trans (view_stallFirst _)
  obtain ⟨lists, recent, handed, hsu, hli⟩ :=
    handOverAt_keeps (beforeOpening s.lapseFirst.stallFirst).openTick s.lapseFirst.fiu.openTick
  have hsu' : (beforeOpening s.lapseFirst.stallFirst).openTick.su = s.lapseFirst.su := congrArg ScheduleView.su hv
  refine ⟨_, congrArg ScheduleView.su hy, ?_, ?_⟩
  · rw [hsu, hsu']
  · calc roles (closeTick s xbsy).li = _ := congrArg ScheduleView.roles hy
      _ = roles (beforeOpening s.lapseFirst.stallFirst).openTick.li := congrArg roles hli
      _ = roles s.lapseFirst.li := congrArg ScheduleView.roles hv

theorem timerAtClose_frame (x : Su) : ∃ timer due, x.timerAtClose = { x with timer := timer, lapseDue := due } := by
  unfold Su.timerAtClose
  split
  · exact ⟨x.timer, x.lapseDue, rfl⟩
  · exact ⟨_, _, rfl⟩

theorem timerAtClose_owned {x : Su} {o : Link} (h : x.owner = some o) :
    x.timerAtClose = { x with timer := x.timer + 1, lapseDue := decide (x.limit ≤ x.timer + 1) } := by
  simp only [Su.timerAtClose, h]

theorem timerAtClose_vacant {x : Su} (h : x.owner = none) : x.timerAtClose = x := by
  simp only [Su.timerAtClose, h]

end closing

/-! ## What the requests of the Schedule Unit can do -/

section taken

variable (s : State) (l : Link)

theorem yieldTaken_cases (u : Unit) :
    (yieldTaken l u s).1 = s.lapseFirst ∨
      (yieldTaken l u s).1 = (s.lapseFirst.withSu { s.lapseFirst.su with owner := none, timer := 0 }).flagAll .schedule := by
  unfold yieldTaken
  simp only
  split
  · exact .inr rfl
  · exact .inl rfl

/-- A TIME_SYNC is refused, or sets or keeps the anchor, or steps it (R61, R62). -/
theorem timeSyncTaken_cases (b : BitVec 32) :
    (timeSyncTaken l b s).1 = s.lapseFirst ∨
      (∃ a, (timeSyncTaken l b s).1 = s.lapseFirst.withSu { s.lapseFirst.su with anchor := a, timer := 0 }) ∨
      ∃ c o, (timeSyncTaken l b s).1 = (timeStep s.lapseFirst c b.toNat o).1 := by
  unfold timeSyncTaken
  simp only
  split
  · exact .inl rfl
  · split
    · exact .inl rfl
    · split
      · exact .inl rfl
      · unfold syncAccepted
        split
        · exact .inr (.inl ⟨_, rfl⟩)
        · simp only
          split
          · exact .inr (.inl ⟨s.lapseFirst.su.anchor, rfl⟩)
          · exact .inr (.inr ⟨_, _, rfl⟩)

/-- The state once an announcement that resolved to `r` stands on the feeds of its mask, but for the report of a late one (R72). -/
def placed (s : State) (x : Announcement) (r : Int) : State :=
  s.withSu { s.su with lists := commitAll s.su.lists x.mask (x.entry s.su.handed r) }

theorem placeAnnouncement_tooFar {s : State} {x : Announcement} {r : Int} (h : (s.retentionHorizon : Int) < r) :
    placeAnnouncement s x r = (s, ⟨.tooFar, []⟩) := if_pos h

theorem placeAnnouncement_full {s : State} {x : Announcement} {r : Int} {f : Feed} (h : ¬ (s.retentionHorizon : Int) < r)
    (hf : x.mask.find? (fun f => overflows (s.su.lists.get f) (x.entry s.su.handed r)) = some f) :
    placeAnnouncement s x r = (s, ⟨.full, [.byte f.val]⟩) := by
  simp only [placeAnnouncement, if_neg h, hf]

theorem placeAnnouncement_room {s : State} {x : Announcement} {r : Int} (h : ¬ (s.retentionHorizon : Int) < r)
    (hf : x.mask.find? (fun f => overflows (s.su.lists.get f) (x.entry s.su.handed r)) = none) :
    placeAnnouncement s x r =
      (if isLate s.su.handed r then (placed s x r).sendReport (lateReport x s.su.handed r) else placed s x r,
        announceReply s.su.lists x (x.entry s.su.handed r) r) := by
  simp only [placeAnnouncement, if_neg h, hf]
  rfl

/-- An ANNOUNCE is refused, or its entry stands on the feeds of its mask, none of which overflowed (R69 to R72). -/
theorem announceTaken_cases (a : AnnounceArgs) :
    (announceTaken l a s).1 = s.lapseFirst ∨
      ∃ (x : Announcement) (an : Anchor) (r : Int), r = s.lapseFirst.resolveTime an x.time ∧
        (∀ f ∈ x.mask, overflows (s.lapseFirst.su.lists.get f) (x.entry s.lapseFirst.su.handed r) = false) ∧
        scheduleView (announceTaken l a s).1 = scheduleView (placed s.lapseFirst x r) := by
  unfold announceTaken
  simp only
  split
  · exact .inl rfl
  · split
    · exact .inl rfl
    · exact .inl rfl
    · rename_i x an _ _
      by_cases hfar : (s.lapseFirst.retentionHorizon : Int) < s.lapseFirst.resolveTime an x.time
      · rw [placeAnnouncement_tooFar hfar]
        exact .inl rfl
      · cases hf : x.mask.find? (fun f => overflows (s.lapseFirst.su.lists.get f)
            (x.entry s.lapseFirst.su.handed (s.lapseFirst.resolveTime an x.time))) with
        | some f =>
          rw [placeAnnouncement_full hfar hf]
          exact .inl rfl
        | none =>
          refine .inr ⟨x, an, _, rfl, fun f hm => Bool.eq_false_of_not_eq_true (List.find?_eq_none.mp hf f hm), ?_⟩
          rw [placeAnnouncement_room hfar hf]
          simp only
          split <;> rfl

/-- A WITHDRAW is refused, or removes entries (R73). -/
theorem withdrawTaken_cases (a : WithdrawArgs) :
    (withdrawTaken l a s).1 = s.lapseFirst ∨
      ∃ mask n k, (withdrawTaken l a s).1 =
        s.lapseFirst.withSu { s.lapseFirst.su with lists := withdrawAll s.lapseFirst.su.lists mask n k } := by
  unfold withdrawTaken
  simp only
  split
  · exact .inl rfl
  · split
    · exact .inl rfl
    · split
      · exact .inl rfl
      · unfold withdrawNamed
        simp only
        split
        · exact .inl rfl
        · exact .inr ⟨_, _, _, rfl⟩

end taken

end Sys2Proof.Proofs.Schedule
end

section

namespace Sys2Proof.Proofs.Schedule

open Sys2Proof Sys2Proof.Machine

/-!
# The schedule owner's role (R64, R195)

A claim reaches the Schedule Unit only from a link with the scheduler role, and roles change only where the owner is vacated.
-/

theorem ownerIsScheduler_of_vacant {s : State} (h : s.su.owner = none) : ownerIsScheduler s := fun l hl => by
  rw [h] at hl
  cases hl

theorem ownerIsScheduler_congr {s t : State} (hs : ownerIsScheduler s) (howner : t.su.owner = s.su.owner)
    (hroles : roles t.li = roles s.li) : ownerIsScheduler t := fun l hl => by
  rw [role_eq_of_roles hroles]
  exact hs l (howner ▸ hl)

theorem ownerIsScheduler_of_view {s t : State} (h : scheduleView t = scheduleView s) (hs : ownerIsScheduler s) : ownerIsScheduler t :=
  ownerIsScheduler_congr hs (congrArg (·.su.owner) h) (congrArg ScheduleView.roles h)

theorem ownerIsScheduler_lapseFirst {s : State} (hs : ownerIsScheduler s) : ownerIsScheduler s.lapseFirst := by
  rcases lapseFirst_cases s with h | h <;> rw [h]
  · exact ownerIsScheduler_of_vacant rfl
  · exact hs

theorem roles_lapseFirst (s : State) : roles s.lapseFirst.li = roles s.li := by
  rcases lapseFirst_cases s with h | h <;> rw [h]
  rfl

/-- A claim is granted to the link that made it, which has the scheduler role. -/
theorem ownerIsScheduler_claimTaken {l : Link} {s : State} (u : Unit) (hs : ownerIsScheduler s)
    (hrole : (s.li.links.get l).role = .scheduler ∨ (s.li.links.get l).role = .schedulerAuditor) :
    ownerIsScheduler (claimTaken l u s).1 := by
  unfold claimTaken
  simp only
  split
  · intro m hm
    obtain rfl : l = m := Option.some.inj hm
    have hkept := role_eq_of_roles ((roles_raiseAll s.lapseFirst.li .schedule).trans (roles_lapseFirst s)) l
    exact hkept ▸ hrole
  · exact ownerIsScheduler_lapseFirst hs

theorem ownerIsScheduler_yieldTaken {s : State} (l : Link) (u : Unit) (hs : ownerIsScheduler s) :
    ownerIsScheduler (yieldTaken l u s).1 := by
  rcases yieldTaken_cases s l u with h | h <;> rw [h]
  · exact ownerIsScheduler_lapseFirst hs
  · exact ownerIsScheduler_of_vacant rfl

theorem ownerIsScheduler_timeSyncTaken {s : State} (l : Link) (b : BitVec 32) (hs : ownerIsScheduler s) :
    ownerIsScheduler (timeSyncTaken l b s).1 := by
  rcases timeSyncTaken_cases s l b with h | ⟨a, h⟩ | ⟨c, o, h⟩ <;> rw [h] <;>
    exact ownerIsScheduler_congr (ownerIsScheduler_lapseFirst hs) rfl rfl

theorem ownerIsScheduler_announceTaken {s : State} (l : Link) (a : AnnounceArgs) (hs : ownerIsScheduler s) :
    ownerIsScheduler (announceTaken l a s).1 := by
  have hx := ownerIsScheduler_lapseFirst hs
  rcases announceTaken_cases s l a with h | ⟨x, an, r, -, -, h⟩
  · exact h ▸ hx
  · exact ownerIsScheduler_of_view h (ownerIsScheduler_congr hx rfl rfl)

theorem ownerIsScheduler_withdrawTaken {s : State} (l : Link) (a : WithdrawArgs) (hs : ownerIsScheduler s) :
    ownerIsScheduler (withdrawTaken l a s).1 := by
  rcases withdrawTaken_cases s l a with h | ⟨mask, n, k, h⟩ <;> rw [h] <;>
    exact ownerIsScheduler_congr (ownerIsScheduler_lapseFirst hs) rfl rfl

theorem ownerIsScheduler_closeTick {s : State} (xbsy : Bool) (hs : ownerIsScheduler s) : ownerIsScheduler (closeTick s xbsy) := by
  obtain ⟨x, hsu, hx, hroles⟩ := closeTick_su s xbsy
  obtain ⟨timer, due, ht⟩ := timerAtClose_frame x
  refine ownerIsScheduler_congr (ownerIsScheduler_lapseFirst hs) ?_ hroles
  rw [hsu, ht]
  exact congrArg (·.owner) hx

theorem ownerIsScheduler_settlement {f : Feed} {s t : State} (hs : ownerIsScheduler s) (h : execSettlement f s = .next t) :
    ownerIsScheduler t := by
  rcases execSettlement_cases h with rfl | ⟨-, hsu, -, -, hroles⟩
  · exact hs
  · exact ownerIsScheduler_congr hs (congrArg Su.owner hsu) hroles

theorem ownerIsScheduler_exec {c : Instr} {s t : State} (hs : ownerIsScheduler s) (h : exec c s = .next t) : ownerIsScheduler t := by
  cases c with
  | powerOn straps =>
    obtain rfl := Host.Outcome.next.inj h
    exact ownerIsScheduler_of_vacant rfl
  | resetPin pin =>
    obtain rfl := Host.Outcome.next.inj h
    cases pin <;> exact ownerIsScheduler_of_vacant rfl
  | tickClose xbsy =>
    obtain rfl := Host.Outcome.next.inj h
    split
    · exact ownerIsScheduler_closeTick xbsy hs
    · exact hs
  | heartbeatLapse =>
    obtain rfl := Host.Outcome.next.inj h
    exact ownerIsScheduler_lapseFirst hs
  | settlement f => exact ownerIsScheduler_settlement hs h
  | status l p =>
    exact keeps_of_passRequest ownerIsScheduler_of_view h
      (fun _ x _ hx => ownerIsScheduler_of_view (view_stallFirst _) (ownerIsScheduler_lapseFirst hx)) hs
  | scheduleClaim l p =>
    refine keeps_of_passRequest ownerIsScheduler_of_view h (fun a x hreach hx => ownerIsScheduler_claimTaken a hx ?_) hs
    rcases (reachesKind_iff _ _).mp hreach with h12 | ⟨-, -, hrole⟩ | ⟨h32, -⟩
    · omega
    · exact hrole
    · omega
  | scheduleYield l p =>
    exact keeps_of_passRequest ownerIsScheduler_of_view h (fun a x _ hx => ownerIsScheduler_yieldTaken l a hx) hs
  | timeSync l p =>
    exact keeps_of_passRequest ownerIsScheduler_of_view h (fun a x _ hx => ownerIsScheduler_timeSyncTaken l a hx) hs
  | announce l p =>
    exact keeps_of_passRequest ownerIsScheduler_of_view h (fun a x _ hx => ownerIsScheduler_announceTaken l a hx) hs
  | withdraw l p =>
    exact keeps_of_passRequest ownerIsScheduler_of_view h (fun a x _ hx => ownerIsScheduler_withdrawTaken l a hx) hs
  | heartbeatSet l p =>
    exact keeps_of_passRequest ownerIsScheduler_of_view h
      (fun a x _ hx => ownerIsScheduler_congr (ownerIsScheduler_lapseFirst hx) rfl rfl) hs
  | measureRestart l p =>
    refine keeps_of_passRequest ownerIsScheduler_of_view h (fun _ _ _ _ => ?_) hs
    unfold measureRestartTaken
    simp only
    split <;> exact ownerIsScheduler_of_vacant rfl
  | _ => exact ownerIsScheduler_of_view (exec_scheduleView rfl h) hs

/-- Settles O25: a step is `exec` of the front command, and every command keeps the invariant. -/
theorem ownerKeepsTheSchedulerRole : Obligations.OwnerKeepsTheSchedulerRole := by
  unfold Obligations.OwnerKeepsTheSchedulerRole
  exact fun s t hs h => step_keeps ownerIsScheduler_of_view ownerIsScheduler_exec hs h

end Sys2Proof.Proofs.Schedule
end

section

namespace Sys2Proof.Proofs.Schedule

open Sys2Proof Sys2Proof.Machine

/-!
# Pending Lists (R63, R71, R72)

The order of a list is that of the entries' ranks, and two entries have one rank exactly when they have one level and one tick. Each operation
on a list in these terms.
-/

/-! ## Ranks -/

theorem level_cases (k : AnnounceKind) : k.level = 1 ∨ k.level = 2 := by
  cases k <;> simp [AnnounceKind.level]

theorem rank_eq_iff {x y : Entry} : x.rank = y.rank ↔ x.kind.level = y.kind.level ∧ x.tick = y.tick := by
  have := level_cases x.kind
  have := level_cases y.kind
  unfold Entry.rank
  omega

theorem before_iff {x y : Entry} : x.before y = true ↔ x.rank < y.rank := by
  have := level_cases x.kind
  have := level_cases y.kind
  simp only [Entry.before, Entry.rank, Bool.or_eq_true, Bool.and_eq_true, decide_eq_true_eq]
  omega

theorem standsAt_iff {x : Entry} {level t : Nat} : x.standsAt level t = true ↔ x.kind.level = level ∧ x.tick = t := by
  simp only [Entry.standsAt, Bool.and_eq_true, decide_eq_true_eq]

/-- An entry stands at the place of another when it has its rank. -/
theorem standsAt_iff_rank {x e : Entry} : x.standsAt e.kind.level e.tick = true ↔ x.rank = e.rank :=
  standsAt_iff.trans rank_eq_iff.symm

/-! ## Putting entries in order -/

theorem insertEntry_eq (e : Entry) (es : List Entry) : insertEntry e es = es.orderedInsert (fun x y => x.rank < y.rank) e := by
  induction es with
  | nil => rfl
  | cons x xs ih => simp only [insertEntry, List.orderedInsert_cons, ih, before_iff]

theorem insertEntry_perm (e : Entry) (es : List Entry) : (insertEntry e es).Perm (e :: es) :=
  insertEntry_eq e es ▸ List.perm_orderedInsert _ e es

theorem mem_insertEntry {e y : Entry} {es : List Entry} : y ∈ insertEntry e es ↔ y = e ∨ y ∈ es :=
  (insertEntry_perm e es).mem_iff.trans List.mem_cons

/-- A list in rank order takes an entry of a new rank in its place. -/
theorem insertEntry_pairwise {e : Entry} {es : List Entry} (hs : es.Pairwise (fun x y => x.rank < y.rank))
    (hne : ∀ x ∈ es, x.rank ≠ e.rank) : (insertEntry e es).Pairwise (fun x y => x.rank < y.rank) := by
  induction es with
  | nil => exact List.pairwise_singleton _ e
  | cons x xs ih =>
    obtain ⟨hx, hxs⟩ := List.pairwise_cons.mp hs
    have hxe := hne x List.mem_cons_self
    unfold insertEntry
    split
    · rename_i hb
      have hlt := before_iff.mp hb
      exact List.pairwise_cons.mpr ⟨fun y hy => (List.mem_cons.mp hy).elim (fun h => h ▸ hlt) (fun h => hlt.trans (hx y h)), hs⟩
    · rename_i hb
      have hlt : x.rank < e.rank := by
        have : ¬ e.rank < x.rank := fun h => hb (before_iff.mpr h)
        omega
      refine List.pairwise_cons.mpr ⟨fun y hy => ?_, ih hxs (fun z hz => hne z (List.mem_cons_of_mem _ hz))⟩
      exact (mem_insertEntry.mp hy).elim (fun h => h ▸ hlt) (hx y)

theorem foldl_insertEntry (es acc : List Entry) (hacc : acc.Pairwise (fun x y => x.rank < y.rank))
    (hne : (es ++ acc).Pairwise (fun x y => x.rank ≠ y.rank)) :
    (es.foldl (fun a e => insertEntry e a) acc).Perm (es ++ acc) ∧
      (es.foldl (fun a e => insertEntry e a) acc).Pairwise (fun x y => x.rank < y.rank) := by
  induction es generalizing acc with
  | nil => exact ⟨List.Perm.refl _, hacc⟩
  | cons e es ih =>
    obtain ⟨he, hes⟩ := List.pairwise_cons.mp hne
    have hperm : (es ++ insertEntry e acc).Perm (e :: es ++ acc) :=
      ((insertEntry_perm e acc).append_left es).trans List.perm_middle
    obtain ⟨hp, hs⟩ := ih (insertEntry e acc)
      (insertEntry_pairwise hacc (fun x hx h => he x (List.mem_append_right _ hx) h.symm))
      (hperm.symm.pairwise hne (fun h => h.symm))
    exact ⟨hp.trans hperm, hs⟩

/-- Entries of different ranks, put in order, are the same entries in rank order. -/
theorem orderEntries_spec {es : List Entry} (hne : es.Pairwise (fun x y => x.rank ≠ y.rank)) :
    (orderEntries es).Perm es ∧ (orderEntries es).Pairwise (fun x y => x.rank < y.rank) := by
  have := foldl_insertEntry es [] List.Pairwise.nil (by simpa using hne)
  simpa [orderEntries] using this

/-! ## Collisions of a time step (R63, step 3) -/

theorem any_standsAt_iff {es : List Entry} {e : Entry} :
    es.any (fun x => x.standsAt e.kind.level e.tick) = true ↔ ∃ x ∈ es, x.rank = e.rank := by
  simp only [List.any_eq_true, standsAt_iff_rank]

theorem dropCollisions_sublist (es : List Entry) : (dropCollisions es).Sublist es := by
  induction es with
  | nil => exact List.Sublist.refl _
  | cons e es ih =>
    unfold dropCollisions
    split
    · exact ih.cons e
    · exact ih.cons_cons e

/-- No two entries that are kept share a rank. -/
theorem dropCollisions_pairwise (es : List Entry) : (dropCollisions es).Pairwise (fun x y => x.rank ≠ y.rank) := by
  induction es with
  | nil => exact List.Pairwise.nil
  | cons e es ih =>
    unfold dropCollisions
    split
    · exact ih
    · rename_i hno
      refine List.pairwise_cons.mpr ⟨fun x hx h => hno (any_standsAt_iff.mpr ⟨x, ?_, h.symm⟩), ih⟩
      exact (dropCollisions_sublist es).subset hx

/-- The last entry of its rank is kept. -/
theorem mem_dropCollisions_of_last {xs ys : List Entry} {e : Entry} (h : ∀ y ∈ ys, y.rank ≠ e.rank) :
    e ∈ dropCollisions (xs ++ e :: ys) := by
  induction xs with
  | nil =>
    have hno : ¬ ys.any (fun x => x.standsAt e.kind.level e.tick) = true := fun hany => by
      obtain ⟨y, hy, hr⟩ := any_standsAt_iff.mp hany
      exact h y hy hr
    simp only [List.nil_append, dropCollisions, if_neg hno, List.mem_cons_self]
  | cons x xs ih =>
    rw [List.cons_append]
    unfold dropCollisions
    split
    · exact ih
    · exact List.mem_cons_of_mem _ ih

/-! ## A list after a time step (R63) -/

theorem restep_eq (e : Entry) (h : Option Nat) (r : Int) :
    e.restep h r = { e with tick := entryTick h r, late := isLate h r || e.late } := by
  cases h with
  | none => rfl
  | some h =>
    by_cases hr : r ≤ h <;> simp [Entry.restep, entryTick, isLate, clampedBy, hr]

theorem stepEntries_perm (h : Option Nat) (g : Nat → Int) (es : List Entry) :
    (stepEntries h g es).Perm (dropCollisions (es.map (fun e => e.restep h (g e.time)))) :=
  (orderEntries_spec (dropCollisions_pairwise _)).1

theorem stepEntries_pairwise (h : Option Nat) (g : Nat → Int) (es : List Entry) :
    (stepEntries h g es).Pairwise (fun x y => x.rank < y.rank) :=
  (orderEntries_spec (dropCollisions_pairwise _)).2

theorem stepEntries_length (h : Option Nat) (g : Nat → Int) (es : List Entry) : (stepEntries h g es).length ≤ es.length := by
  have := (dropCollisions_sublist (es.map (fun e => e.restep h (g e.time)))).length_le
  rwa [List.length_map, ← (stepEntries_perm h g es).length_eq] at this

theorem mem_of_mem_stepEntries {h : Option Nat} {g : Nat → Int} {es : List Entry} {e : Entry} (he : e ∈ stepEntries h g es) :
    ∃ e0 ∈ es, e = e0.restep h (g e0.time) := by
  have := (dropCollisions_sublist _).subset ((stepEntries_perm h g es).subset he)
  obtain ⟨e0, h0, rfl⟩ := List.mem_map.mp this
  exact ⟨e0, h0, rfl⟩

/-- Of the entries of one level that a step brings to one tick the one that was the latest before it survives (R63, step 3). -/
theorem mem_stepEntries_of_latest {h : Option Nat} {g : Nat → Int} {es : List Entry} {e : Entry}
    (hs : es.Pairwise (fun x y => x.rank < y.rank)) (he : e ∈ es)
    (hlast : ∀ x ∈ es, x.kind.level = e.kind.level → (x.restep h (g x.time)).tick = (e.restep h (g e.time)).tick → x.tick ≤ e.tick) :
    e.restep h (g e.time) ∈ stepEntries h g es := by
  obtain ⟨xs, ys, rfl⟩ := List.append_of_mem he
  have hafter : ∀ y ∈ ys, e.rank < y.rank := (List.pairwise_cons.mp (List.pairwise_append.mp hs).2.1).1
  refine (stepEntries_perm h g _).symm.subset ?_
  rw [List.map_append, List.map_cons]
  refine mem_dropCollisions_of_last fun z hz hrank => ?_
  obtain ⟨y, hy, rfl⟩ := List.mem_map.mp hz
  obtain ⟨hlevel, htick⟩ := rank_eq_iff.mp hrank
  rw [restep_eq, restep_eq] at hlevel
  have hle := hlast y (by simp [hy]) hlevel htick
  have hlt := hafter y hy
  simp only [Entry.rank] at hlt hlevel
  omega

/-! ## A list that takes an announcement's entry (R72) -/

theorem replaces_iff {es : List Entry} {e : Entry} :
    replaces es e = true ↔ ∃ y ∈ es, y.kind.level = e.kind.level ∧ y.tick = e.tick := by
  simp only [replaces, List.any_eq_true, standsAt_iff]

theorem overflows_eq_false_iff {es : List Entry} {e : Entry} :
    overflows es e = false ↔ es.length < 8 ∨ ∃ y ∈ es, y.kind.level = e.kind.level ∧ y.tick = e.tick := by
  rw [← replaces_iff, ← Bool.not_eq_true, overflows, Bool.and_eq_true, Bool.not_eq_true', decide_eq_true_eq, Config.pendingListSize]
  cases replaces es e <;> simp

theorem mem_commitEntry {e y : Entry} {es : List Entry} :
    y ∈ commitEntry e es ↔ y = e ∨ (y ∈ es ∧ ¬ (y.kind.level = e.kind.level ∧ y.tick = e.tick)) := by
  rw [← standsAt_iff]
  unfold commitEntry
  by_cases hr : replaces es e = true
  · rw [if_pos hr, List.mem_map]
    obtain ⟨w, hw, hwe⟩ := replaces_iff.mp hr
    constructor
    · rintro ⟨x, hx, rfl⟩
      split
      · exact .inl rfl
      · rename_i hno
        exact .inr ⟨hx, hno⟩
    · rintro (rfl | ⟨hy, hno⟩)
      · exact ⟨w, hw, if_pos (standsAt_iff.mpr hwe)⟩
      · exact ⟨y, hy, if_neg hno⟩
  · rw [if_neg hr, mem_insertEntry]
    exact or_congr_right (iff_self_and.mpr fun hy hst => hr (replaces_iff.mpr ⟨y, hy, standsAt_iff.mp hst⟩))

/-- A list in order that does not overflow on an entry is in order after it took the entry. -/
theorem commitEntry_inOrder {e : Entry} {es : List Entry} (h : listInOrder es) (hroom : overflows es e = false) :
    listInOrder (commitEntry e es) := by
  obtain ⟨hs, hlen⟩ := h
  unfold commitEntry
  by_cases hr : replaces es e = true
  · rw [if_pos hr]
    refine ⟨List.pairwise_map.mpr (hs.imp fun {x y} hxy => ?_), by simpa using hlen⟩
    have hrank : ∀ z : Entry, (if z.standsAt e.kind.level e.tick then e else z).rank = z.rank := fun z => by
      split
      · exact (standsAt_iff_rank.mp ‹_›).symm
      · rfl
    rwa [hrank, hrank]
  · rw [if_neg hr]
    refine ⟨insertEntry_pairwise hs fun x hx hrank => hr (replaces_iff.mpr ⟨x, hx, rank_eq_iff.mp hrank⟩), ?_⟩
    have hlt := (overflows_eq_false_iff.mp hroom).resolve_right fun h => hr (replaces_iff.mpr h)
    rw [(insertEntry_perm e es).length_eq, List.length_cons]
    omega

theorem listInOrder_filter {es : List Entry} (p : Entry → Bool) (h : listInOrder es) : listInOrder (es.filter p) :=
  ⟨h.1.filter p, (List.length_filter_le p es).trans h.2⟩

end Sys2Proof.Proofs.Schedule
end

section

namespace Sys2Proof.Proofs.Schedule

open Sys2Proof Sys2Proof.Machine

/-!
# The Pending Lists stay in order and ahead of the hand-over (R71, R75)

An entry's tick comes from `entryTick`, which lies after the handed-over tick, or at or after the base tick while there is none. A hand-over
takes out of the lists exactly the entries that would fall behind it.
-/

/-! ## The invariant -/

/-- Tick `t` is still to come: it lies after the handed-over tick, or at or after the base tick while there is none. -/
def stillToCome (handed : Option Nat) (base t : Nat) : Prop :=
  (∀ h, handed = some h → h < t) ∧ (handed = none → base ≤ t)

theorem entriesAhead_iff {s : State} {es : List Entry} :
    entriesAhead s es ↔ ∀ e ∈ es, stillToCome s.su.handed s.fiu.baseTick e.tick := by
  unfold entriesAhead stillToCome
  cases s.su.handed <;> simp

/-- The hand-over in pace, by whether there is a handed-over tick. -/
theorem handOverInPace_iff {s : State} :
    handOverInPace s ↔
      (∀ h, s.su.handed = some h → s.fiu.openTick = h + 81 ∧ s.fiu.baseTick ≤ h) ∧
      (s.su.handed = none → s.fiu.openTick ≤ s.fiu.baseTick + 80 ∧ s.fiu.frontier = none ∧
        ∀ f, s.sg.inbox.get f = [] ∧ s.fiu.settledTo.get f = none) := by
  unfold handOverInPace
  cases s.su.handed <;> simp

theorem scheduleInOrder_of_view {s t : State} (h : scheduleView t = scheduleView s) (hs : scheduleInOrder s) : scheduleInOrder t := by
  obtain ⟨hsu, hopen, hbase, hfrontier, hsettled, hinbox, -⟩ := scheduleView_eq_iff.mp h
  simpa only [scheduleInOrder, handOverInPace_iff, entriesAhead_iff, hsu, hopen, hbase, hfrontier, hsettled, hinbox] using hs

/-- A Schedule Unit that keeps the handed-over tick and has lists in order and ahead. -/
theorem scheduleInOrder_withSu {s : State} {x : Su} (hs : scheduleInOrder s) (hh : x.handed = s.su.handed)
    (hl : ∀ f, listInOrder (x.lists.get f) ∧ ∀ e ∈ x.lists.get f, stillToCome s.su.handed s.fiu.baseTick e.tick) :
    scheduleInOrder (s.withSu x) := by
  obtain ⟨hpace, -⟩ := hs
  rw [handOverInPace_iff] at hpace
  simpa only [scheduleInOrder, handOverInPace_iff, entriesAhead_iff, State.withSu_su, State.withSu_fiu, State.withSu_sg, hh]
    using And.intro hpace hl

/-- A Schedule Unit with the same lists and handed-over tick. -/
theorem scheduleInOrder_sameLists {s : State} {x : Su} (hs : scheduleInOrder s) (hh : x.handed = s.su.handed)
    (hl : x.lists = s.su.lists) : scheduleInOrder (s.withSu x) :=
  scheduleInOrder_withSu hs hh fun f => hl ▸ ⟨(hs.2 f).1, entriesAhead_iff.mp (hs.2 f).2⟩

theorem scheduleInOrder_lapseFirst {s : State} (hs : scheduleInOrder s) : scheduleInOrder s.lapseFirst := by
  rcases lapseFirst_cases s with h | h <;> rw [h]
  · exact scheduleInOrder_of_view (view_lapse s) (scheduleInOrder_sameLists hs rfl rfl)
  · exact hs

/-- A block as reset leaves it, with no tick handed over and tick B0 not yet due. -/
theorem scheduleInOrder_of_empty {s : State} (hlists : ∀ f, s.su.lists.get f = []) (hh : s.su.handed = none)
    (hopen : s.fiu.openTick ≤ s.fiu.baseTick + 80) (hfrontier : s.fiu.frontier = none)
    (hwait : ∀ f, s.sg.inbox.get f = [] ∧ s.fiu.settledTo.get f = none) : scheduleInOrder s := by
  refine ⟨handOverInPace_iff.mpr ⟨fun h h' => ?_, fun _ => ⟨hopen, hfrontier, hwait⟩⟩, fun f => ?_⟩
  · rw [hh] at h'
    cases h'
  · rw [hlists f]
    exact ⟨⟨List.Pairwise.nil, Nat.zero_le _⟩, fun e he => absurd he List.not_mem_nil⟩

theorem scheduleInOrder_afterReset (pending : List Instr) (epoch : Nat) (rs : Tri Role) :
    scheduleInOrder (State.afterReset pending epoch rs) :=
  scheduleInOrder_of_empty (Oct.get_fill []) rfl (Nat.zero_le _) rfl fun f => ⟨Oct.get_fill [] f, Oct.get_fill none f⟩

/-! ## Entries that are placed or moved -/

/-- The tick an entry is given, of the tick its station time resolves to, is still to come (R60, R70). -/
theorem entryTick_stillToCome {s : State} (hs : scheduleInOrder s) (a : Anchor) (time : Nat) :
    stillToCome s.su.handed s.fiu.baseTick (entryTick s.su.handed (s.resolveTime a time)) := by
  refine ⟨fun h hh => ?_, fun hh => ?_⟩
  · rw [hh]
    unfold entryTick
    simp only
    split <;> omega
  · have hfrontier : s.fiu.frontier = none := ((handOverInPace_iff.mp hs.1).2 hh).2.1
    rw [hh]
    simp only [entryTick, State.resolveTime, hfrontier]
    omega

theorem scheduleInOrder_placed {s : State} (hs : scheduleInOrder s) {x : Announcement} (an : Anchor)
    (hroom : ∀ f ∈ x.mask, overflows (s.su.lists.get f) (x.entry s.su.handed (s.resolveTime an x.time)) = false) :
    scheduleInOrder (placed s x (s.resolveTime an x.time)) := by
  refine scheduleInOrder_withSu hs rfl fun f => ?_
  have hold := entriesAhead_iff.mp (hs.2 f).2
  rw [commitAll, Oct.get_tab]
  split
  · refine ⟨commitEntry_inOrder (hs.2 f).1 (hroom f ‹_›), fun y hy => ?_⟩
    rcases mem_commitEntry.mp hy with rfl | ⟨hy, -⟩
    · exact entryTick_stillToCome hs an x.time
    · exact hold y hy
  · exact ⟨(hs.2 f).1, hold⟩

theorem scheduleInOrder_timeStep {s : State} (hs : scheduleInOrder s) (c time : Nat) (o : Int) :
    scheduleInOrder (timeStep s c time o).1 := by
  refine scheduleInOrder_of_view (view_sendReport _ _) (scheduleInOrder_withSu hs rfl fun f => ?_)
  rw [Oct.get_map]
  refine ⟨⟨stepEntries_pairwise _ _ _, (stepEntries_length _ _ _).trans (hs.2 f).1.2⟩, fun e he => ?_⟩
  obtain ⟨e0, -, rfl⟩ := mem_of_mem_stepEntries he
  rw [restep_eq]
  exact entryTick_stillToCome hs _ e0.time

/-! ## The requests of the Schedule Unit -/

theorem scheduleInOrder_claimTaken {s : State} (l : Link) (u : Unit) (hs : scheduleInOrder s) :
    scheduleInOrder (claimTaken l u s).1 := by
  have hx := scheduleInOrder_lapseFirst hs
  unfold claimTaken
  simp only
  split
  · exact scheduleInOrder_of_view (view_flagAll _ _) (scheduleInOrder_sameLists hx rfl rfl)
  · exact hx

theorem scheduleInOrder_yieldTaken {s : State} (l : Link) (u : Unit) (hs : scheduleInOrder s) :
    scheduleInOrder (yieldTaken l u s).1 := by
  have hx := scheduleInOrder_lapseFirst hs
  rcases yieldTaken_cases s l u with h | h <;> rw [h]
  · exact hx
  · exact scheduleInOrder_of_view (view_flagAll _ _) (scheduleInOrder_sameLists hx rfl rfl)

theorem scheduleInOrder_timeSyncTaken {s : State} (l : Link) (b : BitVec 32) (hs : scheduleInOrder s) :
    scheduleInOrder (timeSyncTaken l b s).1 := by
  have hx := scheduleInOrder_lapseFirst hs
  rcases timeSyncTaken_cases s l b with h | ⟨a, h⟩ | ⟨c, o, h⟩ <;> rw [h]
  · exact hx
  · exact scheduleInOrder_sameLists hx rfl rfl
  · exact scheduleInOrder_timeStep hx c b.toNat o

theorem scheduleInOrder_announceTaken {s : State} (l : Link) (a : AnnounceArgs) (hs : scheduleInOrder s) :
    scheduleInOrder (announceTaken l a s).1 := by
  have hx := scheduleInOrder_lapseFirst hs
  rcases announceTaken_cases s l a with h | ⟨x, an, r, rfl, hroom, h⟩
  · exact h ▸ hx
  · exact scheduleInOrder_of_view h (scheduleInOrder_placed hx an hroom)

theorem scheduleInOrder_withdrawTaken {s : State} (l : Link) (a : WithdrawArgs) (hs : scheduleInOrder s) :
    scheduleInOrder (withdrawTaken l a s).1 := by
  have hx := scheduleInOrder_lapseFirst hs
  rcases withdrawTaken_cases s l a with h | ⟨mask, n, k, h⟩ <;> rw [h]
  · exact hx
  · refine scheduleInOrder_withSu hx rfl fun f => ?_
    have hold := entriesAhead_iff.mp (hx.2 f).2
    rw [withdrawAll, Oct.get_tab]
    split
    · exact ⟨listInOrder_filter _ (hx.2 f).1, fun e he => hold e (List.mem_filter.mp he).1⟩
    · exact ⟨(hx.2 f).1, hold⟩

/-- MEASURE_RESTART empties the lists and makes the tick after the open one the base tick (R15, R78). -/
theorem scheduleInOrder_measureRestartTaken (u : Unit) (s : State) : scheduleInOrder (measureRestartTaken u s).1 := by
  unfold measureRestartTaken
  simp only
  split <;>
    exact scheduleInOrder_of_empty (Oct.get_fill []) rfl (by simp [State.flagAll, Fiu.measureRestart]; omega) rfl
      fun f => ⟨Oct.get_fill [] f, Oct.get_fill none f⟩

/-! ## Tick close and settlement -/

/-- The close of tick `c` opens the next tick and hands over tick c - 80 where that is at or after the base tick: the lists keep what lies behind it. -/
theorem scheduleInOrder_opening {s t : State} (hs : scheduleInOrder s)
    (ht : scheduleView t = { scheduleView s with openTick := s.fiu.openTick + 1 }) : scheduleInOrder (t.handOverAt s.fiu.openTick) := by
  obtain ⟨hpace, hlists⟩ := hs
  obtain ⟨hsome, hnone⟩ := handOverInPace_iff.mp hpace
  have hsu : t.su = s.su := congrArg ScheduleView.su ht
  have hopen : t.fiu.openTick = s.fiu.openTick + 1 := congrArg ScheduleView.openTick ht
  have hbase : t.fiu.baseTick = s.fiu.baseTick := congrArg ScheduleView.baseTick ht
  have hfrontier : t.fiu.frontier = s.fiu.frontier := congrArg ScheduleView.frontier ht
  have hsettled : t.fiu.settledTo = s.fiu.settledTo := congrArg ScheduleView.settledTo ht
  have hinbox : t.sg.inbox = s.sg.inbox := congrArg ScheduleView.inbox ht
  unfold State.handOverAt Config.lateWindow
  rw [hbase]
  by_cases hdue : s.fiu.baseTick + 80 ≤ s.fiu.openTick
  · rw [if_pos hdue]
    refine ⟨handOverInPace_iff.mpr ⟨fun h hh => ?_, fun hh => ?_⟩, fun f => ?_⟩
    · obtain rfl : s.fiu.openTick - 80 = h := Option.some.inj hh
      show t.fiu.openTick = _ ∧ t.fiu.baseTick ≤ _
      omega
    · cases hh
    · obtain ⟨hget, -, hhanded⟩ := State.handOver_get t (s.fiu.openTick - 80) f
      rw [hget, hsu]
      refine ⟨listInOrder_filter _ (hlists f).1, entriesAhead_iff.mpr fun e he => ?_⟩
      obtain ⟨hmem, hother⟩ := List.mem_filter.mp he
      have hold := entriesAhead_iff.mp (hlists f).2 e hmem
      have hne : e.tick ≠ s.fiu.openTick - 80 := of_decide_eq_true hother
      refine ⟨fun h hh => ?_, fun hh => ?_⟩
      · obtain rfl : s.fiu.openTick - 80 = h := Option.some.inj (hhanded.symm.trans hh)
        cases hcase : s.su.handed with
        | none =>
          have hnow := (hnone hcase).1
          have := hold.2 hcase
          omega
        | some h =>
          have hnow := hsome h hcase
          have := hold.1 h hcase
          omega
      · rw [hhanded] at hh
        cases hh
  · rw [if_neg hdue]
    have hvacant : s.su.handed = none := by
      cases hcase : s.su.handed with
      | none => rfl
      | some h =>
        have := hsome h hcase
        omega
    refine ⟨handOverInPace_iff.mpr ⟨fun h hh => ?_, fun _ => ?_⟩, fun f => ?_⟩
    · rw [hsu, hvacant] at hh
      cases hh
    · obtain ⟨-, hrest⟩ := hnone hvacant
      rw [hfrontier, hinbox, hsettled]
      exact ⟨by omega, hrest⟩
    · rw [hsu]
      refine ⟨(hlists f).1, entriesAhead_iff.mpr ?_⟩
      rw [hsu, hbase]
      exact entriesAhead_iff.mp (hlists f).2

theorem scheduleInOrder_closeTick {s : State} (xbsy : Bool) (hs : scheduleInOrder s) : scheduleInOrder (closeTick s xbsy) := by
  obtain ⟨y, rfl, hy⟩ := view_closeTick s xbsy
  have hv : scheduleView (beforeOpening s.lapseFirst.stallFirst) = scheduleView s.lapseFirst :=
    (view_beforeOpening _).trans (view_stallFirst _)
  have hopened := scheduleInOrder_opening (t := (beforeOpening s.lapseFirst.stallFirst).openTick) (scheduleInOrder_lapseFirst hs)
    (by rw [view_openTick, hv, show (beforeOpening _).fiu.openTick = _ from congrArg ScheduleView.openTick hv]; rfl)
  obtain ⟨timer, due, ht⟩ := timerAtClose_frame
    ((beforeOpening s.lapseFirst.stallFirst).openTick.handOverAt s.lapseFirst.fiu.openTick).su
  exact scheduleInOrder_of_view hy (scheduleInOrder_sameLists hopened (by rw [ht]) (by rw [ht]))

/-- A settlement takes a tick that was handed over, so that there is a handed-over tick, and only the settled ticks and those that wait move. -/
theorem scheduleInOrder_settlement {f : Feed} {s t : State} (hs : scheduleInOrder s) (h : execSettlement f s = .next t) :
    scheduleInOrder t := by
  rcases execSettlement_cases h with rfl | ⟨hinbox, hsu, hopen, hbase, -⟩
  · exact hs
  · obtain ⟨hpace, hlists⟩ := hs
    obtain ⟨hsome, hnone⟩ := handOverInPace_iff.mp hpace
    have hhanded : s.su.handed ≠ none := fun hh => hinbox ((hnone hh).2.2 f).1
    refine ⟨handOverInPace_iff.mpr ?_, fun g => ⟨?_, entriesAhead_iff.mpr ?_⟩⟩
    · rw [hsu, hopen, hbase]
      exact ⟨hsome, fun hh => absurd hh hhanded⟩
    · rw [hsu]
      exact (hlists g).1
    · rw [hsu, hbase]
      exact entriesAhead_iff.mp (hlists g).2

/-! ## Every command -/

theorem scheduleInOrder_exec {c : Instr} {s t : State} (hs : scheduleInOrder s) (h : exec c s = .next t) : scheduleInOrder t := by
  cases c with
  | powerOn straps =>
    obtain rfl := Host.Outcome.next.inj h
    exact scheduleInOrder_afterReset _ _ _
  | resetPin pin =>
    obtain rfl := Host.Outcome.next.inj h
    cases pin with
    | held => exact scheduleInOrder_of_view rfl (scheduleInOrder_afterReset s.pending (s.ac.epoch + 1) (s.li.links.map (·.role)))
    | released straps => exact scheduleInOrder_afterReset _ _ _
  | tickClose xbsy =>
    obtain rfl := Host.Outcome.next.inj h
    split
    · exact scheduleInOrder_closeTick xbsy hs
    · exact hs
  | heartbeatLapse =>
    obtain rfl := Host.Outcome.next.inj h
    exact scheduleInOrder_lapseFirst hs
  | settlement f => exact scheduleInOrder_settlement hs h
  | status l p =>
    exact keeps_of_passRequest scheduleInOrder_of_view h
      (fun _ x _ hx => scheduleInOrder_of_view (view_stallFirst _) (scheduleInOrder_lapseFirst hx)) hs
  | scheduleClaim l p =>
    exact keeps_of_passRequest scheduleInOrder_of_view h (fun a x _ hx => scheduleInOrder_claimTaken l a hx) hs
  | scheduleYield l p =>
    exact keeps_of_passRequest scheduleInOrder_of_view h (fun a x _ hx => scheduleInOrder_yieldTaken l a hx) hs
  | timeSync l p =>
    exact keeps_of_passRequest scheduleInOrder_of_view h (fun a x _ hx => scheduleInOrder_timeSyncTaken l a hx) hs
  | announce l p =>
    exact keeps_of_passRequest scheduleInOrder_of_view h (fun a x _ hx => scheduleInOrder_announceTaken l a hx) hs
  | withdraw l p =>
    exact keeps_of_passRequest scheduleInOrder_of_view h (fun a x _ hx => scheduleInOrder_withdrawTaken l a hx) hs
  | heartbeatSet l p =>
    exact keeps_of_passRequest scheduleInOrder_of_view h
      (fun a x _ hx => scheduleInOrder_sameLists (scheduleInOrder_lapseFirst hx) rfl rfl) hs
  | measureRestart l p =>
    exact keeps_of_passRequest scheduleInOrder_of_view h (fun a x _ _ => scheduleInOrder_measureRestartTaken a x) hs
  | _ => exact scheduleInOrder_of_view (exec_scheduleView rfl h) hs

/-- Settles O24: a step is `exec` of the front command, and every command keeps the invariant. -/
theorem pendingListsStayInOrder : Obligations.PendingListsStayInOrder := by
  unfold Obligations.PendingListsStayInOrder
  exact fun s t hs h => step_keeps scheduleInOrder_of_view scheduleInOrder_exec hs h

/-- Settles O5: after reset the memory, the lists, the log and the Hold Table are empty, and the schedule is vacant. -/
theorem invariantsHoldAfterReset : Obligations.InvariantsHoldAfterReset := by
  unfold Obligations.InvariantsHoldAfterReset
  have hcursors : ∀ l, 1 ≤ State.reset.iu.cursors.get l ∧ State.reset.iu.cursors.get l ≤ State.reset.iu.nextSerial := by decide
  refine ⟨⟨List.Pairwise.nil, rfl, rfl⟩, ownerIsScheduler_of_vacant rfl, scheduleInOrder_afterReset _ _ _,
    ⟨List.Pairwise.nil, Nat.zero_le _, fun x hx => absurd hx List.not_mem_nil, hcursors⟩,
    ⟨List.Pairwise.nil, fun e he => absurd he List.not_mem_nil⟩, fun x hx => absurd hx List.not_mem_nil, fun i h n hi => ?_⟩
  cases hi

end Sys2Proof.Proofs.Schedule
end

section

namespace Sys2Proof.Proofs.Schedule

open Sys2Proof Sys2Proof.Machine

/-!
# Station time and ownership (R59, R60, R64 to R68)

The arithmetic of station times; then SCHEDULE_CLAIM, SCHEDULE_YIELD, the lapse and HEARTBEAT_SET, with the heartbeat's count at a close.
-/

/-! ## Station times -/

theorem dayDifference_spec (u v : Nat) : -43200000 ≤ dayDifference u v ∧ dayDifference u v ≤ 43199999 ∧
    (86400000 : Int) ∣ dayDifference u v - ((u : Int) - v) := by
  simp only [dayDifference, Config.dayMs]
  omega

theorem project_spec (a : Anchor) (t : Nat) : a.project t < 86400000 ∧
    (86400000 : Int) ∣ (a.project t : Int) - ((a.time : Int) + 100 * ((t : Int) - a.tick)) := by
  simp only [Anchor.project, Config.dayMs, Config.tickMs]
  omega

/-- The nearest integer to d / 100, a halfway value to the smaller (R60). -/
theorem nearestTick_spec (d : Int) : -50 < d - 100 * nearestTick d ∧ d - 100 * nearestTick d ≤ 50 := by
  unfold nearestTick
  omega

/-- Settles O18: integer arithmetic with the day and the tick as numerals. -/
theorem stationTimesResolveToNearestTick : Obligations.StationTimesResolveToNearestTick := by
  unfold Obligations.StationTimesResolveToNearestTick
  refine ⟨dayDifference_spec, project_spec, fun a time => ?_, fun s a time => ⟨fun h => ?_, fun f h => ?_⟩⟩
  · obtain ⟨hlo, hhi⟩ := nearestTick_spec (dayDifference time a.time)
    obtain ⟨hdlo, hdhi, -⟩ := dayDifference_spec time a.time
    exact ⟨nearestTick (dayDifference time a.time), rfl, hlo, hhi, by omega, by omega⟩
  · simp only [State.resolveTime, h]
  · simp only [State.resolveTime, h]

/-! ## Requests whose block does not look at the Link Interface -/

section requests

variable {α : Type} {k : Nat} {l : Link} {a : α} {s s' : State} {body : α → State → State × Reply} {r : Reply}

/-- What a block makes of a request, whatever the Link Interface holds, stands beside the request passed on. -/
theorem passRequest_of_body (h : s.mayAsk l k) (hbody : ∀ li, body a (s.withLi li) = (s'.withLi li, r)) :
    passRequest k l (.fits a) s body = { s' with li := s.li.passed l k r } := by
  rw [passRequest_fits a body h, hbody]
  rfl

/-- The same with an attention flag set on all links. -/
theorem passRequest_of_flagged {c : AttentionClass} (h : s.mayAsk l k)
    (hbody : ∀ li, body a (s.withLi li) = ((s'.withLi li).flagAll c, r)) :
    passRequest k l (.fits a) s body = { s' with li := (s.li.passed l k r).raiseAll c } := by
  rw [passRequest_fits a body h, hbody]
  rfl

end requests

/-! ## Ownership -/

section ownership

variable {l : Link} {s : State} (li : Li) (hdue : s.su.lapseDue = false)
include hdue

theorem claimTaken_vacant (h : s.su.owner = none) : claimTaken l () (s.withLi li) =
    (((s.withSu { s.su with owner := some l, timer := 0 }).withLi li).flagAll .schedule, ⟨.ok, [.byte l.val]⟩) := by
  simp only [claimTaken, State.lapseFirst_withLi li hdue, State.withLi_su, h]
  rfl

theorem claimTaken_owned {o : Link} (h : s.su.owner = some o) : claimTaken l () (s.withLi li) =
    (s.withLi li, ⟨if o = l then .ok else .owned, [.byte o.val]⟩) := by
  simp only [claimTaken, State.lapseFirst_withLi li hdue, State.withLi_su, h]

theorem yieldTaken_owner (h : s.su.owner = some l) : yieldTaken l () (s.withLi li) =
    (((s.withSu { s.su with owner := none, timer := 0 }).withLi li).flagAll .schedule, ⟨.ok, []⟩) := by
  simp only [yieldTaken, State.lapseFirst_withLi li hdue, State.withLi_su, if_pos h]
  rfl

theorem yieldTaken_other (h : s.su.owner ≠ some l) : yieldTaken l () (s.withLi li) = (s.withLi li, ⟨.notOwner, []⟩) := by
  simp only [yieldTaken, State.lapseFirst_withLi li hdue, State.withLi_su, if_neg h]
  rfl

theorem heartbeatTaken_eq (b : BitVec 16) : heartbeatTaken b (s.withLi li) =
    ((s.withSu { s.su with limit := limitInRange b }).withLi li,
      ⟨if (limitInRange b : Int) = b.toInt then .ok else .clamped, [.signedWord (limitInRange b)]⟩) := by
  simp only [heartbeatTaken, State.lapseFirst_withLi li hdue]
  rfl

end ownership

/-- Settles O15, by the owner when the claim is taken. -/
theorem claimGrantsAVacantSchedule : Obligations.ClaimGrantsAVacantSchedule := by
  unfold Obligations.ClaimGrantsAVacantSchedule
  intro l s hask hdue
  refine ⟨fun h => congrArg Host.Outcome.next ?vacant, fun h => congrArg Host.Outcome.next ?own,
    fun o h hne => congrArg Host.Outcome.next ?other⟩
  case vacant => exact passRequest_of_flagged hask fun li => claimTaken_vacant li hdue h
  case own => exact passRequest_of_body hask fun li => by rw [claimTaken_owned li hdue h, if_pos rfl]
  case other => exact passRequest_of_body hask fun li => by rw [claimTaken_owned li hdue h, if_neg hne]

/-- Settles O16, by whether the yield comes from the owner. -/
theorem yieldVacatesTheSchedule : Obligations.YieldVacatesTheSchedule := by
  unfold Obligations.YieldVacatesTheSchedule
  exact fun l s hask hdue =>
    ⟨fun h => congrArg Host.Outcome.next (passRequest_of_flagged hask fun li => yieldTaken_owner li hdue h),
     fun h => congrArg Host.Outcome.next (passRequest_of_body hask fun li => yieldTaken_other li hdue h)⟩

/-! ## The heartbeat -/

theorem unconfirm_eq (r : Segment) :
    r.unconfirm = if r.state = .closed then r else { r with flags := { r.flags with scheduleUnconfirmed := true } } := by
  unfold Segment.unconfirm
  split
  · exact (if_pos ‹_›).symm
  · rename_i hne
    exact (if_neg hne).symm

/-- Settles O22: the lapse is what `State.lapse_eq` says, and it marks each record in its place. -/
theorem heartbeatLapseVacatesTheSchedule : Obligations.HeartbeatLapseVacatesTheSchedule := by
  unfold Obligations.HeartbeatLapseVacatesTheSchedule
  intro s hdue
  refine ⟨s.lapse, congrArg Host.Outcome.next (if_pos hdue), rfl, ?_, fun i r hr => ?_⟩
  · simp [State.lapse_eq]
  · rw [← unconfirm_eq]
    exact (tableGet_map s.sg.table i Segment.unconfirm).trans (congrArg _ hr)

/-- The limit in force lies in 20 to 600, and is the value asked for where that does (R67). -/
theorem limitInRange_eq (b : BitVec 16) :
    (limitInRange b : Int) = if b.toInt < 20 then 20 else if 600 < b.toInt then 600 else b.toInt := by
  unfold limitInRange clampInt
  split
  · omega
  · split <;> omega

theorem exec_tickClose {s : State} (xbsy : Bool) (h : s.fiu.periods = 4800) :
    exec (.tickClose xbsy) s = .next (closeTick s xbsy) := congrArg Host.Outcome.next (if_pos h)

theorem limit_lapseFirst (s : State) : s.lapseFirst.su.limit = s.su.limit := by
  rcases lapseFirst_cases s with h | h <;> rw [h]
  rfl

theorem measureRestartTaken_limit (u : Unit) (s : State) : (measureRestartTaken u s).1.su.limit = s.su.limit := by
  unfold measureRestartTaken
  simp only
  split <;> exact limit_lapseFirst s

/-- Settles O23: the request, the two closes and the two restarts each. -/
theorem heartbeatLimitInItsRange : Obligations.HeartbeatLimitInItsRange := by
  unfold Obligations.HeartbeatLimitInItsRange
  refine ⟨?set, ?owned, ?vacant, ?measure, ?archive⟩
  case set =>
    exact fun l b s hask hdue => ⟨limitInRange b,
      congrArg Host.Outcome.next (passRequest_of_body hask fun li => heartbeatTaken_eq li hdue b), limitInRange_eq b⟩
  case owned =>
    intro xbsy s o hfull hdue howner
    obtain ⟨x, hsu, hx, -⟩ := closeTick_su s xbsy
    rw [State.lapseFirst_of_none hdue] at hx
    have hxowner : x.owner = some o := hx ▸ howner
    have hxtimer : x.timer = s.su.timer := hx ▸ rfl
    have hxlimit : x.limit = s.su.limit := hx ▸ rfl
    refine ⟨_, exec_tickClose xbsy hfull, ?_⟩
    rw [hsu, timerAtClose_owned hxowner, hxtimer, hxlimit]
    exact ⟨rfl, hxowner, decide_eq_true_iff⟩
  case vacant =>
    intro xbsy s hfull hdue howner
    obtain ⟨x, hsu, hx, -⟩ := closeTick_su s xbsy
    rw [State.lapseFirst_of_none hdue] at hx
    have hxowner : x.owner = none := hx ▸ howner
    refine ⟨_, exec_tickClose xbsy hfull, ?_⟩
    rw [hsu, timerAtClose_vacant hxowner]
    exact ⟨hx ▸ rfl, hxowner, hx ▸ hdue⟩
  case measure =>
    intro l s hask
    refine ⟨_, rfl, ?_⟩
    rw [passRequest_fits () measureRestartTaken hask]
    exact measureRestartTaken_limit () _
  case archive =>
    intro l s _
    exact ⟨_, rfl, congrArg (·.su.limit) (exec_scheduleView (c := .archiveReset l (.fits ())) rfl rfl)⟩

end Sys2Proof.Proofs.Schedule
end

section

namespace Sys2Proof.Proofs.Schedule

open Sys2Proof Sys2Proof.Machine

/-!
# TIME_SYNC, ANNOUNCE and WITHDRAW (R61 to R63, R69 to R73)

Each block's answer outcome by outcome, on a state in which no lapse is due; the statements put the outcomes beside the request passed on.
-/

theorem closedTick_of_open {s : State} {c : Nat} (h : s.fiu.openTick = c + 1) : s.closedTick = some c := by
  simp [State.closedTick, h]

theorem closedTick_of_none {s : State} (h : s.fiu.openTick = 0) : s.closedTick = none := by
  simp [State.closedTick, h]

/-! ## Counts over the feeds -/

theorem octList_eq_range {α : Type} (o : Oct α) : o.toList = (List.range 8).map (fun i => o.get (Fin.ofNat 8 i)) := rfl

theorem overFeeds_eq (g : List Entry → Nat) (x : Su) :
    overFeeds g x = ((List.range 8).map (fun i => g (x.lists.get (Fin.ofNat 8 i)))).sum := by
  rw [overFeeds, octList_eq_range, List.map_map]
  rfl

/-! ## TIME_SYNC -/

section timeSync

variable {l : Link} {b : BitVec 32} {s : State} (li : Li) (hdue : s.su.lapseDue = false)
include hdue

theorem timeSyncTaken_notOwner (h : s.su.owner ≠ some l) : timeSyncTaken l b (s.withLi li) = (s.withLi li, ⟨.notOwner, []⟩) := by
  simp only [timeSyncTaken, State.lapseFirst_withLi li hdue, State.withLi_su, if_pos h]
  rfl

theorem timeSyncTaken_outOfDay (h : s.su.owner = some l) (hb : 86400000 ≤ b.toNat) :
    timeSyncTaken l b (s.withLi li) = (s.withLi li, ⟨.badArgument, []⟩) := by
  simp only [timeSyncTaken, State.lapseFirst_withLi li hdue, State.withLi_su, if_neg (not_not_intro h)]
  exact if_pos hb

/-- From the owner, with a time of the day, the closed tick decides (R61). -/
theorem timeSyncTaken_owner (h : s.su.owner = some l) (hb : b.toNat < 86400000) :
    timeSyncTaken l b (s.withLi li) =
      match s.closedTick with
      | none => (s.withLi li, ⟨.wrongState, []⟩)
      | some c => syncAccepted (s.withLi li) c b.toNat := by
  simp only [timeSyncTaken, State.lapseFirst_withLi li hdue, State.withLi_su, if_neg (not_not_intro h), Config.dayMs,
    if_neg (Nat.not_le_of_lt hb)]
  rfl

theorem timeSyncTaken_noTick (h : s.su.owner = some l) (hb : b.toNat < 86400000) (hc : s.fiu.openTick = 0) :
    timeSyncTaken l b (s.withLi li) = (s.withLi li, ⟨.wrongState, []⟩) := by
  rw [timeSyncTaken_owner li hdue h hb, closedTick_of_none hc]

theorem timeSyncTaken_accepted {c : Nat} (h : s.su.owner = some l) (hb : b.toNat < 86400000) (hc : s.fiu.openTick = c + 1) :
    timeSyncTaken l b (s.withLi li) = syncAccepted (s.withLi li) c b.toNat := by
  rw [timeSyncTaken_owner li hdue h hb, closedTick_of_open hc]

end timeSync

section accepted

variable {s : State} {c time : Nat} (li : Li)

theorem syncAccepted_set (h : s.su.anchor = none) : syncAccepted (s.withLi li) c time =
    ((s.withSu { s.su with anchor := some ⟨c, time⟩, timer := 0 }).withLi li,
      ⟨.ok, [.byte 0, .signedTick 0, .word 0, .word 0, .word 0]⟩) := by
  simp only [syncAccepted, State.withLi_su, h]
  rfl

theorem syncAccepted_kept {a : Anchor} {o : Int} (h : s.su.anchor = some a) (ho : o = dayDifference time (a.project c))
    (hlo : -200 ≤ o) (hhi : o ≤ 200) : syncAccepted (s.withLi li) c time =
    ((s.withSu { s.su with timer := 0 }).withLi li, ⟨.ok, [.byte 1, .signedTick o]⟩) := by
  have hnear : o.natAbs ≤ Config.stepLimitMs := by
    unfold Config.stepLimitMs
    omega
  simp only [syncAccepted, State.withLi_su, h, ← ho, if_pos hnear]
  rfl

theorem syncAccepted_stepped {a : Anchor} {o : Int} (h : s.su.anchor = some a) (ho : o = dayDifference time (a.project c))
    (hfar : o < -200 ∨ 200 < o) :
    syncAccepted (s.withLi li) c time = ((timeStep s c time o).1.withLi li, (timeStep s c time o).2) := by
  have hfar' : ¬ o.natAbs ≤ Config.stepLimitMs := by
    unfold Config.stepLimitMs
    omega
  simp only [syncAccepted, State.withLi_su, h, ← ho, if_neg hfar']
  rfl

end accepted

/-- An entry at its new tick, by the handed-over tick (R63, step 1). -/
theorem restep_spec (e : Entry) (handed : Option Nat) (r : Int) :
    e.restep handed r = { e with tick := (e.restep handed r).tick, late := (e.restep handed r).late } ∧
      (match handed with
       | some h =>
         if r ≤ h then (e.restep handed r).tick = h + 1 ∧ (e.restep handed r).late = true
         else ((e.restep handed r).tick : Int) = r ∧ (e.restep handed r).late = e.late
       | none => (e.restep handed r).tick = r.toNat ∧ (e.restep handed r).late = e.late) := by
  refine ⟨by rw [restep_eq], ?_⟩
  cases handed with
  | none => exact ⟨rfl, rfl⟩
  | some h =>
    simp only [Entry.restep]
    split
    · exact ⟨rfl, rfl⟩
    · exact ⟨Int.toNat_of_nonneg (by omega), rfl⟩

section stepped

variable (s : State) (c time : Nat) (o : Int)

theorem timeStep_list (f : Feed) : (timeStep s c time o).1.su.lists.get f =
    stepEntries s.su.handed (fun n => s.resolveTime ⟨c, time⟩ n) (s.su.lists.get f) := Oct.get_map _ _ _

/-- A feed's list after a time step holds entries of the list before, re-resolved; from a list in order it is in order and holds the latest of
those that meet (R63). -/
theorem timeStep_list_spec (f : Feed) :
    (∀ e ∈ (timeStep s c time o).1.su.lists.get f, ∃ e0 ∈ s.su.lists.get f, e = e0.restep s.su.handed (s.resolveTime ⟨c, time⟩ e0.time)) ∧
      ((s.su.lists.get f).Pairwise (fun x y => x.rank < y.rank) →
        ((timeStep s c time o).1.su.lists.get f).Pairwise (fun x y => x.rank < y.rank) ∧
        ∀ e0 ∈ s.su.lists.get f,
          (∀ e1 ∈ s.su.lists.get f, e1.kind.level = e0.kind.level →
            (e1.restep s.su.handed (s.resolveTime ⟨c, time⟩ e1.time)).tick = (e0.restep s.su.handed (s.resolveTime ⟨c, time⟩ e0.time)).tick →
            e1.tick ≤ e0.tick) →
          e0.restep s.su.handed (s.resolveTime ⟨c, time⟩ e0.time) ∈ (timeStep s c time o).1.su.lists.get f) := by
  rw [timeStep_list]
  exact ⟨fun e he => mem_of_mem_stepEntries he,
    fun hs => ⟨stepEntries_pairwise _ _ _, fun e0 he0 hlast => mem_stepEntries_of_latest hs he0 hlast⟩⟩

theorem discarded_eq : overFeeds (discardedCount s.su.handed (fun n => s.resolveTime ⟨c, time⟩ n)) s.su =
    ((List.range 8).map (fun i => (s.su.lists.get (Fin.ofNat 8 i)).length -
      ((timeStep s c time o).1.su.lists.get (Fin.ofNat 8 i)).length)).sum := by
  simp only [overFeeds_eq, timeStep_list, discardedCount]

end stepped

/-- Settles O17: the refusals, and by the anchor and the offset the three outcomes; the lists of a step are those of `stepEntries`. -/
theorem timeSyncSetsKeepsOrSteps : Obligations.TimeSyncSetsKeepsOrSteps := by
  unfold Obligations.TimeSyncSetsKeepsOrSteps
  refine ⟨fun l b s c hask hdue howner hb hc => ?_, fun l b s hask hdue => ?_⟩
  · have haccepted := fun li => timeSyncTaken_accepted li hdue howner hb hc
    refine ⟨fun ha => congrArg Host.Outcome.next ?set, fun a o ha ho hlo hhi => congrArg Host.Outcome.next ?kept, ?stepped⟩
    case set => exact passRequest_of_body hask fun li => (haccepted li).trans (syncAccepted_set li ha)
    case kept => exact passRequest_of_body hask fun li => (haccepted li).trans (syncAccepted_kept li ha ho hlo hhi)
    case stepped =>
      intro a o ha ho hfar
      exact ⟨_, _, _, _, fun e => e.restep s.su.handed (s.resolveTime ⟨c, b.toNat⟩ e.time), congrArg Host.Outcome.next
        (passRequest_of_body hask fun li => (haccepted li).trans (syncAccepted_stepped li ha ho hfar)), rfl,
        fun e => restep_spec e _ _, timeStep_list_spec s c b.toNat o, overFeeds_eq _ _, overFeeds_eq _ _, discarded_eq s c b.toNat o⟩
  · exact ⟨fun h => congrArg Host.Outcome.next (passRequest_of_body hask fun li => timeSyncTaken_notOwner li hdue h),
      fun h hb => congrArg Host.Outcome.next (passRequest_of_body hask fun li => timeSyncTaken_outOfDay li hdue h hb),
      fun h hb hc => congrArg Host.Outcome.next (passRequest_of_body hask fun li => timeSyncTaken_noTick li hdue h hb hc)⟩

/-! ## ANNOUNCE -/

section announce

variable {l : Link} {a : AnnounceArgs} {s : State} (li : Li) (hdue : s.su.lapseDue = false)
include hdue

theorem announceTaken_notOwner (h : s.su.owner ≠ some l) : announceTaken l a (s.withLi li) = (s.withLi li, ⟨.notOwner, []⟩) := by
  simp only [announceTaken, State.lapseFirst_withLi li hdue, State.withLi_su, if_pos h]
  rfl

theorem announceTaken_badArgument (h : s.su.owner = some l) (ha : announcementOf a = none) :
    announceTaken l a (s.withLi li) = (s.withLi li, ⟨.badArgument, []⟩) := by
  simp only [announceTaken, State.lapseFirst_withLi li hdue, State.withLi_su, if_neg (not_not_intro h), ha]
  rfl

theorem announceTaken_noTime (h : s.su.owner = some l) (ha : (announcementOf a).isSome) (han : s.su.anchor = none) :
    announceTaken l a (s.withLi li) = (s.withLi li, ⟨.noTime, []⟩) := by
  obtain ⟨x, hx⟩ := Option.isSome_iff_exists.mp ha
  simp only [announceTaken, State.lapseFirst_withLi li hdue, State.withLi_su, if_neg (not_not_intro h), hx, han]
  rfl

theorem announceTaken_resolved {x : Announcement} {an : Anchor} (h : s.su.owner = some l) (hx : announcementOf a = some x)
    (han : s.su.anchor = some an) :
    announceTaken l a (s.withLi li) = placeAnnouncement (s.withLi li) x (s.resolveTime an x.time) := by
  simp only [announceTaken, State.lapseFirst_withLi li hdue, State.withLi_su, if_neg (not_not_intro h), hx, han]
  rfl

end announce

theorem announceKindOf_eq_none {b : Byte} (h : 4 < b.toNat) : announceKindOf b = none := by
  unfold announceKindOf
  split
  case h_6 => rfl
  all_goals omega

theorem requirementOf_badTag {r : RequirementField} (hform : r.form = 2) (htag : tagValid r.tag = false) : requirementOf r = none := by
  simp [requirementOf, hform, htag]

/-- A field out of its range makes the fields no announcement (R69, step 2). -/
theorem announcementOf_eq_none {a : AnnounceArgs}
    (h : a.kind.toNat > 4 ∨ maskFeeds a.mask = [] ∨ 86400000 ≤ a.time.toNat ∨ 7 < a.limitSet.toNat ∨
      (a.requirement.form = 2 ∧ tagValid a.requirement.tag = false)) : announcementOf a = none := by
  unfold announcementOf
  split
  · rename_i hk hq
    refine if_pos ?_
    rcases h with h | h | h | h | ⟨hform, htag⟩
    · rw [announceKindOf_eq_none h] at hk
      cases hk
    · exact .inl h
    · exact .inr (.inl h)
    · exact .inr (.inr h)
    · rw [requirementOf_badTag hform htag] at hq
      cases hq
  · rfl

theorem horizon_lt_iff (s : State) (r : Int) : (s.retentionHorizon : Int) < r ↔ (s.fiu.openTick : Int) + 35999 < r := by
  simp only [State.retentionHorizon, Config.horizonTicks]
  omega

/-- Settles O20, refusal by refusal in the order of R69, R70 and R72. -/
theorem refusedAnnouncementChangesNothing : Obligations.RefusedAnnouncementChangesNothing := by
  unfold Obligations.RefusedAnnouncementChangesNothing
  intro l a s hask hdue
  refine ⟨fun h => congrArg Host.Outcome.next ?notOwner, fun h hbad => congrArg Host.Outcome.next ?badArgument,
    fun h ha han => congrArg Host.Outcome.next ?noTime, fun x an h hx han hfar => congrArg Host.Outcome.next ?tooFar,
    fun x an f h hx han hnear hf => congrArg Host.Outcome.next ?full⟩
  case notOwner => exact passRequest_of_body hask fun li => announceTaken_notOwner li hdue h
  case badArgument => exact passRequest_of_body hask fun li => announceTaken_badArgument li hdue h (announcementOf_eq_none hbad)
  case noTime => exact passRequest_of_body hask fun li => announceTaken_noTime li hdue h ha han
  case tooFar =>
    exact passRequest_of_body hask fun li => (announceTaken_resolved li hdue h hx han).trans
      (placeAnnouncement_tooFar (s := s.withLi li) ((horizon_lt_iff s _).mpr hfar))
  case full =>
    exact passRequest_of_body hask fun li => (announceTaken_resolved li hdue h hx han).trans
      (placeAnnouncement_full (s := s.withLi li) (fun hfar => absurd ((horizon_lt_iff s _).mp hfar) (not_lt.mpr hnear)) hf)

/-- The entry of an announcement, by its fields and by the handed-over tick (R70, R71). -/
theorem entry_unique {x : Announcement} {e : Entry} {handed : Option Nat} {r : Int} (hkind : e.kind = x.kind)
    (hid : e.segmentId = x.segmentId) (hlimit : e.limitSet = x.limitSet) (hreq : e.requirement = x.requirement) (htime : e.time = x.time)
    (htick : match handed with
      | some h => if r ≤ h then e.tick = h + 1 ∧ e.late = true else (e.tick : Int) = r ∧ e.late = false
      | none => e.tick = r.toNat ∧ e.late = false) : x.entry handed r = e := by
  have hplace : e.tick = entryTick handed r ∧ e.late = isLate handed r := by
    cases handed with
    | none => exact htick
    | some h =>
      simp only [entryTick, isLate, clampedBy]
      by_cases hr : r ≤ h
      · simp only [if_pos hr] at htick
        simpa [hr] using htick
      · simp only [if_neg hr] at htick
        obtain ⟨htick, hlate⟩ := htick
        rw [if_neg hr, hlate, decide_eq_false hr]
        exact ⟨by omega, rfl⟩
  cases e
  simp_all [Announcement.entry]

/-- A list whose items are one field each. -/
theorem listed_singleton {α : Type} (g : α → Wire) (as : List α) : listed (fun a => [g a]) as = .byte as.length :: as.map g :=
  congrArg _ (List.flatMap_pure_eq_map g as)

theorem announceReply_fields (lists : Oct (List Entry)) (x : Announcement) (e : Entry) (r : Int) :
    (announceReply lists x e r).fields = [.tick e.tick, resolvedField r, .choice e.late, .byte x.mask.length] ++
      x.mask.map (fun f => .byte (if ∃ y ∈ lists.get f, y.kind.level = e.kind.level ∧ y.tick = e.tick then 1 else 0)) := by
  have hmark : ∀ f, (replaces (lists.get f) e).toNat =
      if ∃ y ∈ lists.get f, y.kind.level = e.kind.level ∧ y.tick = e.tick then 1 else 0 := fun f => by
    simp only [← replaces_iff]
    cases replaces (lists.get f) e <;> rfl
  simp only [announceReply, hmark, listed_singleton]
  rfl

theorem announceReply_status (lists : Oct (List Entry)) (x : Announcement) (e : Entry) (r : Int) :
    (announceReply lists x e r).status = if e.late then .clamped
      else if ∃ f ∈ x.mask, ∃ y ∈ lists.get f, y.kind.level = e.kind.level ∧ y.tick = e.tick then .replaced else .ok := by
  simp only [announceReply, List.any_eq_true, replaces_iff]

theorem resolvedField_spec (r : Int) :
    (0 ≤ r → resolvedField r = .tick r.toNat) ∧ (r < 0 → ∃ b : BitVec 48, resolvedField r = .openTick b) :=
  ⟨fun h => if_pos h, fun h => ⟨_, if_neg (not_le.mpr h)⟩⟩

/-- The state once an announcement stands on the feeds of its mask and a late one is reported (R70, R72). -/
def announced (s : State) (x : Announcement) (r : Int) : State :=
  (placed s x r).withIu { s.iu with reports := s.iu.reports ++ if isLate s.su.handed r then [lateReport x s.su.handed r] else [] }

theorem placeAnnouncement_announced {s : State} {x : Announcement} {r : Int} (li : Li) (h : r < s.fiu.openTick + 36000)
    (hroom : ∀ f ∈ x.mask, overflows (s.su.lists.get f) (x.entry s.su.handed r) = false) :
    placeAnnouncement (s.withLi li) x r =
      ((announced s x r).withLi li, announceReply s.su.lists x (x.entry s.su.handed r) r) := by
  have hnear : ¬ (s.retentionHorizon : Int) < r := fun hfar => by
    have := (horizon_lt_iff s r).mp hfar
    omega
  have hnone : x.mask.find? (fun f => overflows (s.su.lists.get f) (x.entry s.su.handed r)) = none :=
    List.find?_eq_none.mpr fun f hf => Bool.not_eq_true _ ▸ hroom f hf
  refine (placeAnnouncement_room (s := s.withLi li) hnear hnone).trans (Prod.ext ?_ rfl)
  by_cases hlate : isLate s.su.handed r = true
  · refine (if_pos hlate).trans ?_
    simp only [announced, if_pos hlate]
    rfl
  · refine (if_neg hlate).trans ?_
    simp only [announced, if_neg hlate, List.append_nil]
    rfl

/-- Settles O19: the entry is the one the statement describes, and it joins the lists of the mask as `commitEntry` does. -/
theorem announcementStandsOnEveryFeed : Obligations.AnnouncementStandsOnEveryFeed := by
  unfold Obligations.AnnouncementStandsOnEveryFeed
  intro l a s x an r e hask hdue howner hx han hr hnear hkind hid hlimit hreq htime htick hroom
  have he := entry_unique hkind hid hlimit hreq htime htick
  have hroom' : ∀ f ∈ x.mask, overflows (s.su.lists.get f) (x.entry s.su.handed r) = false := fun f hf =>
    overflows_eq_false_iff.mpr (he ▸ hroom f hf)
  subst he
  have htaken : ∀ li, announceTaken l a (s.withLi li) =
      ((announced s x r).withLi li, announceReply s.su.lists x (x.entry s.su.handed r) r) := fun li => by
    rw [announceTaken_resolved li hdue howner hx han, ← hr, placeAnnouncement_announced li hnear hroom']
  refine ⟨_, announceReply s.su.lists x (x.entry s.su.handed r) r, congrArg Host.Outcome.next (passRequest_of_body hask htaken), rfl,
    announceReply_status _ _ _ _, ⟨resolvedField r, announceReply_fields _ _ _ _, resolvedField_spec r⟩, fun f hf y => ?_, fun f hf => ?_⟩
  · have hlist : (commitAll s.su.lists x.mask (x.entry s.su.handed r)).get f = commitEntry (x.entry s.su.handed r) (s.su.lists.get f) :=
      (Oct.get_tab _ f).trans (if_pos hf)
    exact (iff_of_eq (congrArg (y ∈ ·) hlist)).trans mem_commitEntry
  · exact (Oct.get_tab _ f).trans (if_neg hf)

/-! ## WITHDRAW -/

section withdraw

variable {l : Link} {a : WithdrawArgs} {s : State} (li : Li) (hdue : s.su.lapseDue = false)
include hdue

theorem withdrawTaken_notOwner (h : s.su.owner ≠ some l) : withdrawTaken l a (s.withLi li) = (s.withLi li, ⟨.notOwner, []⟩) := by
  simp only [withdrawTaken, State.lapseFirst_withLi li hdue, State.withLi_su, if_pos h]
  rfl

theorem withdrawTaken_badArgument (h : s.su.owner = some l) (hbad : maskFeeds a.mask = [] ∨ announceKindOf a.kind = none) :
    withdrawTaken l a (s.withLi li) = (s.withLi li, ⟨.badArgument, []⟩) := by
  simp only [withdrawTaken, State.lapseFirst_withLi li hdue, State.withLi_su, if_neg (not_not_intro h)]
  cases hk : announceKindOf a.kind with
  | none => rfl
  | some k => exact if_pos (hbad.resolve_right (hk ▸ Option.some_ne_none k))

theorem withdrawTaken_named {k : AnnounceKind} (h : s.su.owner = some l) (hm : maskFeeds a.mask ≠ [])
    (hk : announceKindOf a.kind = some k) :
    withdrawTaken l a (s.withLi li) = withdrawNamed (s.withLi li) (maskFeeds a.mask) a.segmentId.toNat k := by
  simp only [withdrawTaken, State.lapseFirst_withLi li hdue, State.withLi_su, if_neg (not_not_intro h), hk, if_neg hm]

end withdraw

section named

variable {s : State} {mask : List Feed} {n : Nat} {k : AnnounceKind} (li : Li)

theorem named_iff {e : Entry} : e.named n k = true ↔ e.segmentId = n ∧ e.kind = k := by
  simp only [Entry.named, Bool.and_eq_true, decide_eq_true_eq]

theorem namedCount_eq_zero_iff {es : List Entry} : namedCount n k es = 0 ↔ ∀ e ∈ es, ¬ (e.segmentId = n ∧ e.kind = k) := by
  simp only [namedCount, List.length_eq_zero_iff, List.filter_eq_nil_iff, named_iff]

/-- No entry is named on the feeds of the mask exactly when the counts are all 0. -/
theorem namedCounts_sum_eq_zero_iff : (mask.map (fun f => namedCount n k (s.su.lists.get f))).sum = 0 ↔
    ∀ f ∈ mask, ∀ e ∈ s.su.lists.get f, ¬ (e.segmentId = n ∧ e.kind = k) := by
  simp only [List.sum_eq_zero_iff, List.mem_map, forall_exists_index, and_imp, forall_apply_eq_imp_iff₂, namedCount_eq_zero_iff]

/-- A list without its named entries, and how many those were. -/
theorem unnamed_eq (es : List Entry) :
    es.filter (fun e => !(e.named n k)) = es.filter (fun e => !(decide (e.segmentId = n ∧ e.kind = k))) := by
  simp only [Entry.named, Bool.decide_and]

theorem namedCount_eq_sub (es : List Entry) : namedCount n k es = es.length - (es.filter (fun e => !(e.named n k))).length := by
  have := List.length_eq_length_filter_add (l := es) (fun e => e.named n k)
  unfold namedCount
  omega

theorem withdrawNamed_none (h : ∀ f ∈ mask, ∀ e ∈ s.su.lists.get f, ¬ (e.segmentId = n ∧ e.kind = k)) :
    withdrawNamed (s.withLi li) mask n k = (s.withLi li, ⟨if (n, k) ∈ s.su.recent then .tooLate else .notFound, []⟩) :=
  if_pos (namedCounts_sum_eq_zero_iff.mpr h)

theorem withdrawAll_get (lists : Oct (List Entry)) (f : Feed) : (withdrawAll lists mask n k).get f =
    if f ∈ mask then (lists.get f).filter (fun e => !(decide (e.segmentId = n ∧ e.kind = k))) else lists.get f := by
  rw [withdrawAll, Oct.get_tab, unnamed_eq]

theorem withdrawAll_count (lists : Oct (List Entry)) {f : Feed} (hf : f ∈ mask) :
    namedCount n k (lists.get f) = (lists.get f).length - ((withdrawAll lists mask n k).get f).length := by
  rw [withdrawAll, Oct.get_tab, if_pos hf, namedCount_eq_sub]

theorem withdrawNamed_some (h : ∃ f ∈ mask, ∃ e ∈ s.su.lists.get f, e.segmentId = n ∧ e.kind = k) :
    withdrawNamed (s.withLi li) mask n k =
      ((s.withSu { s.su with lists := withdrawAll s.su.lists mask n k }).withLi li,
        ⟨.ok, .byte mask.length ::
          mask.map (fun f => .word ((s.su.lists.get f).length - ((withdrawAll s.su.lists mask n k).get f).length))⟩) := by
  obtain ⟨f, hf, e, he, hnamed⟩ := h
  refine (if_neg fun h0 => namedCounts_sum_eq_zero_iff.mp h0 f hf e he hnamed).trans ?_
  rw [listed_singleton, List.length_map, List.map_map,
    ← List.map_congr_left fun f hf => congrArg Wire.word (withdrawAll_count (n := n) (k := k) s.su.lists hf)]
  rfl

end named

/-- Settles O21: the refusals, and for the owner whether any entry on the feeds of the mask is named. -/
theorem withdrawRemovesNamedEntries : Obligations.WithdrawRemovesNamedEntries := by
  unfold Obligations.WithdrawRemovesNamedEntries
  intro l a s hask hdue
  refine ⟨fun h => congrArg Host.Outcome.next (passRequest_of_body hask fun li => withdrawTaken_notOwner li hdue h),
    fun h hbad => congrArg Host.Outcome.next (passRequest_of_body hask fun li => withdrawTaken_badArgument li hdue h hbad),
    fun k h hm hk => ⟨fun hnamed => ?some, fun hnone => ?none⟩⟩
  case some =>
    exact ⟨_, congrArg Host.Outcome.next (passRequest_of_body hask fun li =>
      (withdrawTaken_named li hdue h hm hk).trans (withdrawNamed_some li hnamed)), rfl, withdrawAll_get s.su.lists⟩
  case none =>
    exact congrArg Host.Outcome.next (passRequest_of_body hask fun li =>
      (withdrawTaken_named li hdue h hm hk).trans (withdrawNamed_none li hnone))

end Sys2Proof.Proofs.Schedule
end

section

namespace Sys2Proof.Proofs.Schedule

open Sys2Proof Sys2Proof.Machine

/-!
# STATUS (R198)

The blocks' items, block by block, in the form of R197; STATUS is passed on like any request and its body leaves the state as it got it.
-/

/-! ## The request -/

theorem alertLine_await (li : Li) (l : Link) (k : Byte) : (li.await l k).alertLine l = li.alertLine l := by
  simp [Li.alertLine, Li.await, Tri.get_update, alertActive]

theorem linkItems_await (s : State) (l : Link) (k : Byte) : linkItems (s.withLi (s.li.await l k)) l = linkItems s l := by
  simp only [linkItems, State.withLi_li, alertLine_await]
  simp [Li.await, Tri.get_update]

/-- The items are those of the part before the request: only the link's slot has moved. -/
theorem statusFields_await (s : State) (l : Link) (k : Byte) : statusFields (s.withLi (s.li.await l k)) l = statusFields s l := by
  simp only [statusFields, linkItems_await]
  rfl

theorem exec_status {l : Link} {s : State} (hask : s.mayAsk l 1) (hdue : s.su.lapseDue = false) (hstall : s.xu.stallDue = false) :
    exec (.status l (.fits ())) s = .next { s with li := s.li.passed l 1 ⟨.ok, statusFields s l⟩ } := by
  refine congrArg Host.Outcome.next ((passRequest_fits () (statusTaken l) hask).trans ?_)
  simp only [statusTaken, State.lapseFirst_withLi _ hdue, State.stallFirst_withLi _ hstall, statusFields_await]
  exact sendReply_await s l 1 _

/-! ## The items of the blocks -/

section items

variable (s : State)

/-- The SU's items after the owner (R68). -/
def scheduleRest (s : State) : List Wire := List.flatten
  [optionalField (fun (a : Anchor) => [.tick a.tick, .long a.time]) s.su.anchor, optionalField (fun n => [.long n]) (projectedNow s),
   [.signedWord s.su.limit], optionalField (fun (_ : Link) => [.word s.su.timer]) s.su.owner,
   optionalField (fun t => [.tick t]) s.su.handed, s.su.lists.toList.map (fun es => .word es.length), [.word s.su.recent.length]]

theorem scheduleItems_eq : scheduleItems s = optionalField (fun (l : Link) => [.byte l.val]) s.su.owner ++ scheduleRest s := by
  simp only [scheduleItems, scheduleRest, List.flatten_cons, List.flatten_nil, List.append_nil, List.append_assoc]

/-- The part of STATUS that follows the owner. -/
theorem statusFields_eq (l : Link) : statusFields s l =
    ((linkItems s l ++ [.tick s.fiu.openTick]) ++ (optionalField (fun t => [.tick t]) s.closedTick ++
      optionalField (fun t => [.tick t]) s.fiu.frontier)) ++
    (optionalField (fun (l : Link) => [.byte l.val]) s.su.owner ++
      [scheduleRest s, segmentItems s, incidentItems s, retentionItems s, recordingItems s, archiveItems s, exportItems s].flatten) := by
  simp only [statusFields, tickItems, scheduleItems_eq, List.flatten_cons, List.flatten_nil, List.append_nil, List.append_assoc]

theorem projectedNow_none (h : s.su.anchor = none ∨ s.fiu.openTick = 0) : projectedNow s = none := by
  unfold projectedNow
  rcases h with h | h
  · rw [h]
  · rw [closedTick_of_none h]
    cases s.su.anchor <;> rfl

theorem projectedNow_some {a : Anchor} {c : Nat} (ha : s.su.anchor = some a) (hc : s.fiu.openTick = c + 1) :
    projectedNow s = some (a.project c) := by
  simp only [projectedNow, ha, closedTick_of_open hc]

theorem recordingItems_eq : recordingItems s = List.flatten
    [[.word s.rc.spans.length],
     match s.rc.spans.head? with | none => [.byte 0] | some x => [.byte 1, .tick x.firstTick],
     match s.rc.spans.getLast? with | none => [.byte 0] | some x => [.byte 1, .tick (x.firstTick + x.length - 1)],
     [.choice s.rc.stall]] := by
  unfold recordingItems oldestPresent newestPresent
  cases s.rc.spans.head? <;> cases s.rc.spans.getLast? <;> rfl

theorem lastEndings_eq : (s.xu.endings.toList.map (optionalField endingFields)).flatten =
    ((List.range 3).map (fun i => match s.xu.endings.get (Fin.ofNat 3 i) with
      | none => [.byte 0]
      | some x => [.byte 1, .long x.job, .byte x.status.place, .long x.sent, .long x.damaged, .long x.unavailable,
          .long x.absent])).flatten := by
  have hfields : ∀ o : Option Ending, optionalField endingFields o = (match o with
      | none => [.byte 0]
      | some x => [.byte 1, .long x.job, .byte x.status.place, .long x.sent, .long x.damaged, .long x.unavailable,
          .long x.absent]) := fun o => by cases o <;> rfl
  rw [funext hfields]
  rfl

theorem exportItems_eq : exportItems s = List.flatten
    [[.word s.xu.jobs.length], optionalField (activeJobFields s) s.xu.jobs.head?, [.byte (s.xu.jobs.length - 1)],
     (s.xu.jobs.tail.map queuedJobFields).flatten,
     ((List.range 3).map (fun i => match s.xu.endings.get (Fin.ofNat 3 i) with
      | none => [.byte 0]
      | some x => [.byte 1, .long x.job, .byte x.status.place, .long x.sent, .long x.damaged, .long x.unavailable,
          .long x.absent])).flatten] := by
  rw [← lastEndings_eq, ← List.length_tail]
  simp only [exportItems, listed, List.flatten_cons, List.flatten_nil, List.append_nil, List.append_assoc, List.cons_append,
    List.nil_append]

end items

/-- Settles O13: the payload in the parts the statement names, each given by the cases of what it shows. -/
theorem statusReportsAndChangesNothing : Obligations.StatusReportsAndChangesNothing := by
  unfold Obligations.StatusReportsAndChangesNothing
  intro l s hask hdue hstall
  have hexec := exec_status hask hdue hstall
  rw [statusFields_eq] at hexec
  refine ⟨_, _, _, _, hexec, ?head, ?noTick, ?noFrontier, ?frontier, ?vacant, ?owned, scheduleRest s, segmentItems s, incidentItems s,
    retentionItems s, recordingItems s, archiveItems s, exportItems s, rfl, ?su, rfl, rfl, rfl, recordingItems_eq s, rfl, ?xu⟩
  case head =>
    rw [linkItems, Li.alertLine_released l hask.1]
    rfl
  case noTick => exact fun hc hf => by rw [closedTick_of_none hc, hf]; rfl
  case noFrontier => exact fun c hc hf => by rw [closedTick_of_open hc, hf]; rfl
  case frontier => exact fun c f hc hf => by rw [closedTick_of_open hc, hf]; rfl
  case vacant => exact fun h => by rw [h]; rfl
  case owned => exact fun o h => by rw [h]; rfl
  case su =>
    refine ⟨optionalField (fun n => [.long n]) (projectedNow s), fun h => by rw [projectedNow_none s h]; rfl,
      fun a c ha hc => by rw [projectedNow_some s ha hc]; rfl, ?_⟩
    unfold scheduleRest
    cases s.su.anchor <;> cases s.su.owner <;> cases s.su.handed <;> rfl
  case xu =>
    refine ⟨_, _, fun h => ?_, fun j rest h => ?_, exportItems_eq s⟩
    · rw [h]
      exact ⟨rfl, rfl⟩
    · rw [h]
      exact ⟨rfl, rfl⟩

end Sys2Proof.Proofs.Schedule
end

section

namespace Sys2Proof.Proofs.Segments

open Sys2Proof Sys2Proof.Machine

/-!
# Limit sets (R96, R97)

LIMITS_WRITE stores what `limitsInForce` makes of the nine fields, LIMITS_READ shows a set; each refuses an index beyond the eight sets.
-/

theorem limitFields_eq (x : LimitSet) : limitFields x = List.flatten
    [[.signedWord x.target, .signedWord x.toleranceAbove, .signedWord x.toleranceBelow],
     match x.ceiling with | none => [.byte 0] | some v => [.byte 1, .signedWord v],
     [.signedWord x.minBlocks, .signedWord x.speechThreshold, .signedWord x.maxGap, .signedWord x.minCoverage],
     match x.deadAir with | none => [.byte 0] | some n => [.byte 1, .signedWord n]] := by
  unfold limitFields
  cases x.ceiling <;> cases x.deadAir <;> rfl

/-! ## Bringing a value into its range -/

/-- A value brought into a range of natural numbers, read as a natural number, is itself. -/
theorem clampInt_toNat {lo : Int} (hlo : 0 ≤ lo) (hi v : Int) : ((clampInt lo hi v).toNat : Int) = max lo (min hi v) :=
  Int.toNat_of_nonneg (hlo.trans (le_max_left _ _))

theorem limitsInForce_deadAir (a : LimitsWriteArgs) :
    (limitsInForce a).deadAir.map (fun (n : Nat) => (n : Int)) = a.deadAir.map (fun v => max 20 (min 600 v.toInt)) := by
  rw [limitsInForce, Option.map_map]
  exact congrArg (a.deadAir.map ·) (funext fun v => clampInt_toNat (by decide) 600 v.toInt)

theorem limitsUnchanged_iff (a : LimitsWriteArgs) : limitsUnchanged a = true ↔
    (limitsInForce a).target = a.target.toInt ∧ (limitsInForce a).toleranceAbove = a.toleranceAbove.toInt ∧
      (limitsInForce a).toleranceBelow = a.toleranceBelow.toInt ∧ (limitsInForce a).ceiling = a.ceiling.map BitVec.toInt ∧
      ((limitsInForce a).minBlocks : Int) = a.minBlocks.toInt ∧ (limitsInForce a).speechThreshold = a.speechThreshold.toInt ∧
      ((limitsInForce a).maxGap : Int) = a.maxGap.toInt ∧ ((limitsInForce a).minCoverage : Int) = a.minCoverage.toInt ∧
      (limitsInForce a).deadAir.map (fun (n : Nat) => (n : Int)) = a.deadAir.map BitVec.toInt := by
  simp only [limitsUnchanged, Bool.and_eq_true, decide_eq_true_iff, and_assoc]

/-- What LIMITS_WRITE answers: whether a field was brought into its range. -/
def limitsStatus (a : LimitsWriteArgs) : Status := if limitsUnchanged a then .ok else .clamped

theorem limitsStatus_cases (a : LimitsWriteArgs) : limitsStatus a = .ok ∨ limitsStatus a = .clamped := by
  unfold limitsStatus
  split
  · exact .inl rfl
  · exact .inr rfl

theorem limitsStatus_ok_iff (a : LimitsWriteArgs) : limitsStatus a = .ok ↔ limitsUnchanged a = true := by
  unfold limitsStatus
  split <;> simp [*]

/-! ## The two requests -/

theorem limitIndexOf_none {b : Byte} (h : 7 < b.toNat) : limitIndexOf b = none :=
  Option.eq_none_iff_forall_ne_some.mpr fun i hi => by
    have := limitIndexOf_eq_some.mp hi
    omega

section requests

variable {l : Link} {s : State}

theorem exec_limitsWrite_refused {a : LimitsWriteArgs} (h : s.mayAsk l 32) (hi : 7 < a.index.toNat) :
    exec (.limitsWrite l (.fits a)) s = .next { s with li := s.li.passed l 32 ⟨.badArgument, []⟩ } :=
  congrArg Host.Outcome.next (Loudness.passRequest_of_read h fun li => by
    simp only [limitsWriteTaken, limitIndexOf_none hi, refuse])

theorem exec_limitsWrite {a : LimitsWriteArgs} {i : Fin 8} (h : s.mayAsk l 32) (hi : a.index.toNat = i.val) :
    exec (.limitsWrite l (.fits a)) s = .next { s with
      sg := { s.sg with limits := s.sg.limits.set i (limitsInForce a) }
      li := s.li.passed l 32 ⟨limitsStatus a, .byte i.val :: limitFields (limitsInForce a)⟩ } :=
  congrArg Host.Outcome.next (Schedule.passRequest_of_body
    (s' := s.withSg { s.sg with limits := s.sg.limits.set i (limitsInForce a) }) h fun li => by
      simp only [limitsWriteTaken, limitIndexOf_eq_some.mpr hi]
      rfl)

theorem exec_limitsRead_refused {b : Byte} (h : s.mayAsk l 7) (hb : 7 < b.toNat) :
    exec (.limitsRead l (.fits b)) s = .next { s with li := s.li.passed l 7 ⟨.badArgument, []⟩ } :=
  congrArg Host.Outcome.next (Loudness.passRequest_of_read h fun li => by
    simp only [limitsReadTaken, limitIndexOf_none hb, refuse])

theorem exec_limitsRead {b : Byte} {i : Fin 8} (h : s.mayAsk l 7) (hb : b.toNat = i.val) :
    exec (.limitsRead l (.fits b)) s = .next { s with li := s.li.passed l 7 ⟨.ok, limitFields (s.sg.limits.get i)⟩ } :=
  congrArg Host.Outcome.next (Loudness.passRequest_of_read h fun li => by
    simp only [limitsReadTaken, limitIndexOf_eq_some.mpr hb, State.withLi_sg])

end requests

/-- Settles O39: each field of `limitsInForce` is the written value brought into the range of R96. -/
theorem limitSetsAreWrittenAndRead : Obligations.LimitSetsAreWrittenAndRead := by
  unfold Obligations.LimitSetsAreWrittenAndRead
  refine ⟨limitFields_eq, fun l a s h => ⟨exec_limitsWrite_refused h, fun i hi => ?_⟩,
    fun l b s h => ⟨exec_limitsRead_refused h, fun i => exec_limitsRead h⟩⟩
  exact ⟨limitsInForce a, limitsStatus a, exec_limitsWrite h hi, rfl, rfl, rfl, rfl, clampInt_toNat (by decide) _ _, rfl,
    clampInt_toNat (by decide) _ _, clampInt_toNat (by decide) _ _, limitsInForce_deadAir a, limitsStatus_cases a,
    (limitsStatus_ok_iff a).trans (limitsUnchanged_iff a)⟩

end Sys2Proof.Proofs.Segments
end

section

namespace Sys2Proof.Proofs.Segments

open Sys2Proof Sys2Proof.Machine

/-!
# Verdicts (R92 to R94)

VERDICT folds `judgeRecord` over the records that wait, sorted by close sequence. The sorted list is the one list of them in rising close
sequence, and the fold is written out once: what it leaves of the table, of the reports and of the SEGMENT flag.
-/

/-! ## The order of judging (R93) -/

theorem mem_toJudge {s : State} {f : Feed} {e : Nat × Segment} :
    e ∈ toJudge s f ↔ e ∈ s.sg.table ∧ e.2.feed = f ∧ e.2.verdict = some .pending := by
  rw [toJudge, Loudness.sortBySeq_eq, List.mem_insertionSort, List.mem_filter]
  simp [awaitsVerdict]

theorem toJudge_nodup {s : State} (hs : tableSorted s.sg.table) (f : Feed) : (toJudge s f).Nodup := by
  have hfilter : (s.sg.table.filter (fun e => awaitsVerdict f e.2)).Nodup :=
    (List.Pairwise.imp (fun hlt heq => absurd (congrArg Prod.fst heq) (Nat.ne_of_lt hlt)) hs).filter _
  rw [toJudge, Loudness.sortBySeq_eq]
  exact (List.perm_insertionSort Loudness.seqLE _).nodup_iff.mpr hfilter

/-- A list in strictly rising close sequence is the only one of its members in close sequence order. -/
theorem eq_of_risingSeq {xs es : List (Nat × Segment)} (hxs : xs.Pairwise Loudness.seqLE) (hnd : xs.Nodup)
    (hmem : ∀ e, e ∈ xs ↔ e ∈ es)
    (hes : es.Pairwise (fun a b => ∃ m n, a.2.closeSeq = some m ∧ b.2.closeSeq = some n ∧ m < n)) : xs = es := by
  have hlt : es.Pairwise (fun a b => a.2.closeSeq.getD 0 < b.2.closeSeq.getD 0) := by
    refine hes.imp fun {a b} hab => ?_
    obtain ⟨m, n, ha, hb, hmn⟩ := hab
    simpa [ha, hb] using hmn
  have hkeys : (es.map (fun e => e.2.closeSeq.getD 0)).Nodup := List.pairwise_map.mpr (hlt.imp fun h => Nat.ne_of_lt h)
  have hperm : xs.Perm es := (List.perm_ext_iff_of_nodup hnd hkeys.of_map).mpr hmem
  refine hperm.eq_of_pairwise (fun a b ha hb hab hba => ?_) hxs (hlt.imp fun h => Nat.le_of_lt h)
  exact List.inj_on_of_nodup_map hkeys ((hmem a).mp ha) hb (Nat.le_antisymm hab hba)

/-! ## The fold (R93, R94) -/

/-- The Segment Table with the records `es` judged. -/
def judgedTable (table es : List (Nat × Segment)) : List (Nat × Segment) :=
  es.foldl (fun t e => tableUpdate t e.1 (fun _ => e.2.judged)) table

theorem judgedTable_cons (table : List (Nat × Segment)) (e : Nat × Segment) (es : List (Nat × Segment)) :
    judgedTable table (e :: es) = judgedTable (tableUpdate table e.1 (fun _ => e.2.judged)) es := rfl

theorem judgedTable_get_other {table es : List (Nat × Segment)} {j : Nat} (hj : ∀ e ∈ es, e.1 ≠ j) :
    tableGet (judgedTable table es) j = tableGet table j := by
  induction es generalizing table with
  | nil => rfl
  | cons x es ih =>
    rw [judgedTable_cons, ih fun e he => hj e (List.mem_cons_of_mem _ he), tableGet_update, if_neg (hj x List.mem_cons_self).symm]

/-- A record that is judged once stands judged in its slot. -/
theorem judgedTable_get_mem {table es : List (Nat × Segment)} {e : Nat × Segment} (he : e ∈ es)
    (hone : ∀ x ∈ es, x.1 = e.1 → x = e) (ht : (tableGet table e.1).isSome) :
    tableGet (judgedTable table es) e.1 = some e.2.judged := by
  induction es generalizing table with
  | nil => cases he
  | cons x es ih =>
    have hone' : ∀ y ∈ es, y.1 = e.1 → y = e := fun y hy => hone y (List.mem_cons_of_mem _ hy)
    rw [judgedTable_cons]
    by_cases hes : e ∈ es
    · refine ih hes hone' ?_
      rw [tableGet_update]
      split
      · simpa using ht
      · exact ht
    · obtain rfl : e = x := (List.mem_cons.mp he).resolve_right hes
      obtain ⟨v, hv⟩ := Option.isSome_iff_exists.mp ht
      rw [judgedTable_get_other fun y hy hslot => hes (hone' y hy hslot ▸ hy), tableGet_update, if_pos rfl, hv, Option.map_some]

/-- Raising a flag that is raised changes nothing. -/
theorem raiseAll_raiseAll (li : Li) (k : AttentionClass) : (li.raiseAll k).raiseAll k = li.raiseAll k := by
  cases k <;> rfl

/-- SEGMENT is flagged when a flag of one of the records `es` is set (R94). -/
def flagSegment (li : Li) (es : List (Nat × Segment)) : Li :=
  if es.any (fun e => e.2.judged.flags.any) then li.raiseAll .segment else li

theorem flagSegment_cons (li : Li) (e : Nat × Segment) (es : List (Nat × Segment)) :
    flagSegment li (e :: es) = flagSegment (if e.2.judged.flags.any then li.raiseAll .segment else li) es := by
  unfold flagSegment
  by_cases hany : e.2.judged.flags.any = true
  · simp [hany, raiseAll_raiseAll]
  · rw [if_neg hany, List.any_cons, Bool.eq_false_of_not_eq_true hany, Bool.false_or]

/-- The reports of the judged records `es`, record by record (R94). -/
def judgedReports (u : Nat) (es : List (Nat × Segment)) : List Report :=
  (es.map (fun e => verdictReports u (e.1, e.2.judged))).flatten

theorem judgeRecord_eq (s : State) (u : Nat) (e : Nat × Segment) :
    s.judgeRecord u e = { s with
      sg := { s.sg with table := tableUpdate s.sg.table e.1 (fun _ => e.2.judged) }
      iu := { s.iu with reports := s.iu.reports ++ verdictReports u (e.1, e.2.judged) }
      li := if e.2.judged.flags.any then s.li.raiseAll .segment else s.li } := by
  unfold State.judgeRecord
  cases hany : e.2.judged.flags.any with
  | _ => simp only [hany]; rfl

theorem judgeRecords_eq (s : State) (u : Nat) (es : List (Nat × Segment)) :
    es.foldl (fun x e => x.judgeRecord u e) s = { s with
      sg := { s.sg with table := judgedTable s.sg.table es }
      iu := { s.iu with reports := s.iu.reports ++ judgedReports u es }
      li := flagSegment s.li es } := by
  induction es generalizing s with
  | nil => simp [judgedTable, judgedReports, flagSegment]
  | cons e es ih =>
    rw [List.foldl_cons, ih, judgeRecord_eq, flagSegment_cons]
    simp only [judgedTable, judgedReports, List.foldl_cons, List.map_cons, List.flatten_cons, List.append_assoc]

theorem exec_verdict {f : Feed} {s : State} {es : List (Nat × Segment)} (hlm : s.sg.noticeLm.get f = none)
    (hcc : s.sg.noticeCc.get f = none) (hes : toJudge s f = es) :
    exec (.verdict f) s = .next { s with
      sg := { s.sg with table := judgedTable s.sg.table es }
      iu := { s.iu with reports := s.iu.reports ++ judgedReports ((s.fiu.settledTo.get f).getD 0) es }
      li := flagSegment s.li es } := by
  have harm : exec (.verdict f) s = execVerdict f s := rfl
  have hhandled : noticesHandled s f = true := by simp [noticesHandled, hlm, hcc]
  rw [harm, execVerdict, if_pos hhandled, hes, judgeRecords_eq]

/-! ## The flags of one record (R92, R93) -/

section judging

variable (r : Segment)

theorem judgeFlags_kept : (judgeFlags r).lateStart = r.flags.lateStart ∧
    (judgeFlags r).scheduleUnconfirmed = r.flags.scheduleUnconfirmed := by
  unfold judgeFlags
  cases r.loudness with
  | none => exact ⟨rfl, rfl⟩
  | some x =>
    simp only [loudnessFlags]
    split
    · exact ⟨rfl, rfl⟩
    · cases x.integrated <;> exact ⟨rfl, rfl⟩

theorem judgeFlags_coverageLow_iff : (judgeFlags r).coverageLow = true ↔
    r.requirement ≠ .none ∧ ∃ c, r.coverage = some c ∧ c < r.limits.minCoverage := by
  have hflag : (judgeFlags r).coverageLow = coverageLow r := rfl
  rw [hflag, coverageLow]
  cases r.coverage <;> simp

theorem judgeFlags_of_none (h : r.loudness = none) :
    judgeFlags r = { r.flags with coverageLow := (judgeFlags r).coverageLow } := by
  simp only [judgeFlags, h]

/-- With results the checks of R92 are made, then the ceiling and the coverage (R93). -/
theorem judgeFlags_of_some {x : Loudness} (h : r.loudness = some x) :
    judgeFlags r = { loudnessFlags r x r.flags with shortTermHigh := aboveCeiling r x, coverageLow := coverageLow r } := by
  simp only [judgeFlags, h]

theorem aboveCeiling_iff (x : Loudness) :
    aboveCeiling r x = true ↔ ∃ c m, r.limits.ceiling = some c ∧ x.maxShortTerm = some m ∧ c < m := by
  unfold aboveCeiling
  cases r.limits.ceiling <;> cases x.maxShortTerm <;> simp

variable {r} {x : Loudness} (v : VerdictFlags)

theorem loudnessFlags_tooFew (h : x.active < r.limits.minBlocks) :
    loudnessFlags r x v = { v with silent := x.silent, tooShort := true } := by
  simp only [loudnessFlags, if_pos h]

theorem loudnessFlags_unmeasured (h : r.limits.minBlocks ≤ x.active) (hi : x.integrated = none) :
    loudnessFlags r x v = { v with silent := x.silent } := by
  simp only [loudnessFlags, if_neg (Nat.not_lt.mpr h), hi]

theorem loudnessFlags_measured {i : Int} (h : r.limits.minBlocks ≤ x.active) (hi : x.integrated = some i) :
    loudnessFlags r x v = { v with
      silent := x.silent
      loudnessHigh := decide (r.limits.target + r.limits.toleranceAbove < i)
      loudnessLow := decide (r.kind ≠ .item) && decide (i < r.limits.target - r.limits.toleranceBelow) } := by
  simp only [loudnessFlags, if_neg (Nat.not_lt.mpr h), hi]

theorem loudnessFlags_silent : (loudnessFlags r x v).silent = x.silent := by
  rcases Nat.lt_or_ge x.active r.limits.minBlocks with h | h
  · rw [loudnessFlags_tooFew v h]
  · cases hi : x.integrated with
    | none => rw [loudnessFlags_unmeasured v h hi]
    | some i => rw [loudnessFlags_measured v h hi]

theorem loudnessFlags_tooShort_iff :
    (loudnessFlags r x v).tooShort = true ↔ x.active < r.limits.minBlocks ∨ v.tooShort = true := by
  rcases Nat.lt_or_ge x.active r.limits.minBlocks with h | h
  · simp [loudnessFlags_tooFew v h, h]
  · cases hi : x.integrated with
    | none => simp [loudnessFlags_unmeasured v h hi, Nat.not_lt.mpr h]
    | some i => simp [loudnessFlags_measured v h hi, Nat.not_lt.mpr h]

theorem loudnessFlags_unjudged (h : x.active < r.limits.minBlocks ∨ x.integrated = none) :
    (loudnessFlags r x v).loudnessHigh = v.loudnessHigh ∧ (loudnessFlags r x v).loudnessLow = v.loudnessLow := by
  rcases Nat.lt_or_ge x.active r.limits.minBlocks with hfew | henough
  · rw [loudnessFlags_tooFew v hfew]
    exact ⟨rfl, rfl⟩
  · rw [loudnessFlags_unmeasured v henough (h.resolve_left (Nat.not_lt.mpr henough))]
    exact ⟨rfl, rfl⟩

end judging

/-- The reports of one judged record as R94's table has them. -/
theorem verdictReports_judged (u : Nat) (e : Nat × Segment) {f : Feed} (hf : e.2.feed = f) :
    verdictReports u (e.1, e.2.judged) =
      (if e.2.judged.flags.loudnessHigh then
        [⟨.loudnessHigh, some f, some ⟨e.1, e.2.openTick⟩, e.2.segmentId, some (.segment e.2.kind), u, e.2.openTick,
          e.2.lastMember.getD e.2.openTick, e.2.loudness.bind (fun x => x.integrated),
          some (e.2.limits.target + e.2.limits.toleranceAbove), e.2.flags.scheduleUnconfirmed⟩] else []) ++
      ((if e.2.judged.flags.loudnessLow then
        [⟨.loudnessLow, some f, some ⟨e.1, e.2.openTick⟩, e.2.segmentId, some (.segment e.2.kind), u, e.2.openTick,
          e.2.lastMember.getD e.2.openTick, e.2.loudness.bind (fun x => x.integrated),
          some (e.2.limits.target - e.2.limits.toleranceBelow), e.2.flags.scheduleUnconfirmed⟩] else []) ++
      ((if e.2.judged.flags.shortTermHigh then
        [⟨.shortTermHigh, some f, some ⟨e.1, e.2.openTick⟩, e.2.segmentId, some (.segment e.2.kind), u, e.2.openTick,
          e.2.lastMember.getD e.2.openTick, e.2.loudness.bind (fun x => x.maxShortTerm), e.2.limits.ceiling,
          e.2.flags.scheduleUnconfirmed⟩] else []) ++
      (if e.2.judged.flags.coverageLow then
        [⟨.coverageLow, some f, some ⟨e.1, e.2.openTick⟩, e.2.segmentId, some (.segment e.2.kind), u, e.2.openTick,
          e.2.lastMember.getD e.2.openTick, e.2.coverage.map (fun (v : Nat) => (v : Int)), some (e.2.limits.minCoverage : Int),
          e.2.flags.scheduleUnconfirmed⟩] else []))) := by
  obtain ⟨-, hunconfirmed⟩ := judgeFlags_kept e.2
  subst hf
  rw [← hunconfirmed]
  simp only [verdictReports, List.append_assoc]
  rfl

/-- Settles O37: the sorted list of records that wait is `es`, and the fold over it is `judgeRecords_eq`. -/
theorem verdictJudgesTheClosedRecord : Obligations.VerdictJudgesTheClosedRecord := by
  unfold Obligations.VerdictJudgesTheClosedRecord
  intro f s es hlm hcc hs hes hseq
  have horder : toJudge s f = es := eq_of_risingSeq (Loudness.sortBySeq_pairwise _) (toJudge_nodup hs f)
    (fun e => mem_toJudge.trans (hes e).symm) hseq
  refine ⟨_, fun e => e.2.judged, (s.fiu.settledTo.get f).getD 0, exec_verdict hlm hcc horder, rfl, fun w hw => by rw [hw]; rfl,
    fun j => judgedTable_get_other, rfl, ?reports, ?record⟩
  case reports =>
    refine congrArg (s.iu.reports ++ List.flatten ·) (List.map_congr_left fun e he => ?_)
    exact verdictReports_judged _ e ((hes e).mp he).2.1
  case record =>
    rintro e r q he rfl rfl
    have hget : ∀ x ∈ es, tableGet s.sg.table x.1 = some x.2 := fun x hx => tableGet_of_mem hs ((hes x).mp hx).1
    have hone : ∀ x ∈ es, x.1 = e.1 → x = e := fun x hx hxe =>
      Prod.ext hxe (Option.some.inj ((hget x hx).symm.trans (hxe ▸ hget e he)))
    refine ⟨judgedTable_get_mem he hone (Option.isSome_of_mem (hget e he)), rfl, judgeFlags_kept e.2, judgeFlags_coverageLow_iff e.2,
      judgeFlags_of_none e.2, fun x hx => ?_⟩
    have hflags : e.2.judged.flags = _ := judgeFlags_of_some e.2 hx
    rw [hflags]
    refine ⟨loudnessFlags_silent _, loudnessFlags_tooShort_iff _, loudnessFlags_unjudged _, fun v henough hv => ?_,
      aboveCeiling_iff e.2 x⟩
    simp [loudnessFlags_measured _ henough hv]

end Sys2Proof.Proofs.Segments
end

section

namespace Sys2Proof.Proofs.Segments

open Sys2Proof Sys2Proof.Machine

/-!
# The Segment Table under a settlement (R80 to R90)

How the records of a feed are found, what taking a slot, opening and closing leave of the table, and when SETTLEMENT settles.
-/

/-! ## The records of a feed (R81) -/

theorem isOpenLevel1_iff {f : Feed} {r : Segment} :
    isOpenLevel1 f r = true ↔ r.feed = f ∧ r.state = .opened ∧ r.kind ≠ .item := by
  simp [isOpenLevel1, and_assoc]

theorem isOpenItem_iff {f : Feed} {r : Segment} : isOpenItem f r = true ↔ r.feed = f ∧ r.state = .opened ∧ r.kind = .item := by
  simp [isOpenItem, and_assoc]

theorem isSuspended_iff {f : Feed} {r : Segment} : isSuspended f r = true ↔ r.feed = f ∧ r.state = .suspended := by
  simp [isSuspended]

section lookups

variable {table : List (Nat × Segment)} {f : Feed} {x : Nat × Segment}

theorem openLevel1_spec (h : openLevel1 table f = some x) : x ∈ table ∧ isOpenLevel1 f x.2 = true :=
  ⟨List.mem_of_find?_eq_some h, List.find?_some (p := fun e : Nat × Segment => isOpenLevel1 f e.2) h⟩

theorem openItem_spec (h : openItem table f = some x) : x ∈ table ∧ isOpenItem f x.2 = true :=
  ⟨List.mem_of_find?_eq_some h, List.find?_some (p := fun e : Nat × Segment => isOpenItem f e.2) h⟩

theorem suspendedProgramme_spec (h : suspendedProgramme table f = some x) : x ∈ table ∧ isSuspended f x.2 = true :=
  ⟨List.mem_of_find?_eq_some h, List.find?_some (p := fun e : Nat × Segment => isSuspended f e.2) h⟩

end lookups

/-- A feed without a record has none of a sort that names the feed. -/
theorem find_of_noRecord {table : List (Nat × Segment)} {f : Feed} {p : Segment → Bool} (hno : ∀ x ∈ table, x.2.feed ≠ f)
    (hp : ∀ r, p r = true → r.feed = f) : table.find? (fun e => p e.2) = none :=
  List.find?_eq_none.mpr fun x hx hpx => hno x hx (hp x.2 hpx)

/-! ## Writing to the table -/

section tables

variable {α : Type} {t : List (Nat × α)} {n : Nat} {v : α}

theorem mem_tablePut_self (t : List (Nat × α)) (n : Nat) (v : α) : (n, v) ∈ tablePut t n v :=
  mem_of_tableGet (by rw [tableGet_put, if_pos rfl])

/-- What is written under a free number displaces nothing. -/
theorem mem_tablePut_of_free (hs : tableSorted t) (hn : tableGet t n = none) {e : Nat × α} (he : e ∈ t) : e ∈ tablePut t n v := by
  refine mem_of_tableGet ?_
  rw [tableGet_put, if_neg (tableGet_none_iff.mp hn e he)]
  exact tableGet_of_mem hs he

/-- Looking for what nothing but the new entry is finds the new entry. -/
theorem find_tablePut {p : Nat × α → Bool} (hp : p (n, v) = true) (hother : ∀ e ∈ t, p e ≠ true) :
    (tablePut t n v).find? p = some (n, v) := by
  cases hfind : (tablePut t n v).find? p with
  | none => exact absurd hp (List.find?_eq_none.mp hfind _ (mem_tablePut_self t n v))
  | some e =>
    rcases mem_tablePut (List.mem_of_find?_eq_some hfind) with rfl | he
    · rfl
    · exact absurd (List.find?_some hfind) (hother e he)

theorem tableUpdate_of_free (hn : tableGet t n = none) (g : α → α) : tableUpdate t n g = t := by
  refine (List.map_congr_left fun e he => ?_).trans t.map_id
  exact if_neg (tableGet_none_iff.mp hn e he)

/-- An entry changed where it was just written is an entry written so. -/
theorem tableUpdate_put (hn : tableGet t n = none) (g : α → α) : tableUpdate (tablePut t n v) n g = tablePut t n (g v) := by
  induction t with
  | nil => simp [tablePut, tableUpdate]
  | cons e t ih =>
    obtain ⟨k, w⟩ := e
    have hk : k ≠ n := tableGet_none_iff.mp hn (k, w) List.mem_cons_self
    have ht : tableGet t n = none := by rwa [tableGet_cons, if_neg hk] at hn
    simp only [tablePut, if_neg hk.symm]
    split
    · have hrest := tableUpdate_of_free hn g
      simp only [tableUpdate, List.map_cons, if_true] at hrest ⊢
      rw [hrest]
    · have hput := ih ht
      simp only [tableUpdate, List.map_cons, if_neg hk] at hput ⊢
      rw [hput]

theorem mem_tableUpdate_other {g : α → α} {e : Nat × α} (he : e ∈ t) (hn : e.1 ≠ n) : e ∈ tableUpdate t n g :=
  List.mem_map.mpr ⟨e, he, if_neg hn⟩

/-- Every entry has its successor, changed or not. -/
theorem mem_tableUpdate {g : α → α} {e : Nat × α} (he : e ∈ t) :
    (e.1, if e.1 = n then g e.2 else e.2) ∈ tableUpdate t n g := by
  refine List.mem_map.mpr ⟨e, he, ?_⟩
  split <;> rfl

end tables

/-! ## Taking a slot (R80) -/

/-- A slot taken is free in the table that is left, which is the former table but for what stood in the slot. -/
theorem takeSlot_spec {table left : List (Nat × Segment)} {i : Nat} (h : takeSlot table = some (i, left)) :
    tableGet left i = none ∧ (∀ j, j ≠ i → tableGet left j = tableGet table j) ∧ ∀ x ∈ left, x ∈ table := by
  unfold takeSlot at h
  cases hfree : tableFree table Config.segmentSlots with
  | some k =>
    rw [hfree] at h
    cases h
    exact ⟨(tableFree_eq_some.mp hfree).2.1, fun _ _ => rfl, fun _ hx => hx⟩
  | none =>
    rw [hfree] at h
    obtain ⟨k, -, hk⟩ := Option.map_eq_some_iff.mp h
    cases hk
    exact ⟨by rw [tableGet_erase, if_pos rfl], fun j hj => by rw [tableGet_erase, if_neg hj], fun x hx => List.mem_of_mem_filter hx⟩

theorem openSegment_of_slot {s : State} {left : List (Nat × Segment)} {i : Nat} (h : takeSlot s.sg.table = some (i, left)) (f : Feed)
    (u : Nat) (o : Opening) :
    s.openSegment f u o = some { s with
      sg := { s.sg with table := tablePut left i (newSegment s.sg.limits f u o) }
      lm := s.lm.opened f o.kind ⟨i, u⟩ } := by
  simp only [State.openSegment, h]
  rfl

/-- A close changes the record of its slot and no other entry (R89). -/
theorem closeSegment_table (s : State) (e : Nat × Segment) (cause : AnnounceKind × Nat) :
    (s.closeSegment e cause).sg.table = tableUpdate s.sg.table e.1
      (fun r => r.closeWith (s.sg.closeSeq + 1) cause ((s.lm.integratorOf e.2.feed e.2.kind).map Integrator.results)) := rfl

/-! ## The first boundary of a feed (R84) -/

/-- What the first settlement of a feed opens for its level-1 entry. -/
def firstOpening : Option Entry → Opening
  | none => openUnscheduled false
  | some e =>
    match e.kind with
    | .programme => openProgramme e
    | .adBreak => openBreak e
    | _ => openUnscheduled false

theorem applyFirst_eq (s : State) (f : Feed) (u : Nat) (e : Option Entry) :
    applyFirst s f u e = s.openSegment f u (firstOpening e) := by
  cases e with
  | none => rfl
  | some e =>
    simp only [applyFirst, firstOpening]
    cases e.kind <;> rfl

theorem firstOpening_ne_item (e : Option Entry) : (firstOpening e).kind ≠ .item := by
  cases e with
  | none => decide
  | some e =>
    simp only [firstOpening]
    cases e.kind <;> simp [openProgramme, openBreak, openUnscheduled]

/-! ## SETTLEMENT (R9, R93) -/

section settlement

variable {s t : State} {f : Feed} {ht : HandedTick} {rest : List HandedTick}

theorem maySettle_iff : maySettle s f = true ↔
    s.sg.noticeLm.get f = none ∧ s.sg.noticeCc.get f = none ∧ ∀ x ∈ s.sg.table, x.2.feed = f → x.2.verdict ≠ some .pending := by
  simp [maySettle, noticesHandled, awaitsVerdict, and_assoc]

theorem exec_settlement_empty (hinbox : s.sg.inbox.get f = []) : exec (.settlement f) s = .next s := by
  have harm : exec (.settlement f) s = execSettlement f s := rfl
  simp only [harm, execSettlement, hinbox]

theorem exec_settlement_notDue (hinbox : s.sg.inbox.get f = ht :: rest) (hmay : maySettle s f ≠ true) :
    exec (.settlement f) s = .next s := by
  have harm : exec (.settlement f) s = execSettlement f s := rfl
  simp only [harm, execSettlement, hinbox, if_neg hmay]

theorem exec_settlement_due (hinbox : s.sg.inbox.get f = ht :: rest) (hmay : maySettle s f = true)
    (h : settleTick s f ht rest = some t) : exec (.settlement f) s = .next t := by
  have harm : exec (.settlement f) s = execSettlement f s := rfl
  simp only [harm, execSettlement, hinbox, if_pos hmay, h]

end settlement

end Sys2Proof.Proofs.Segments
end

section

namespace Sys2Proof.Proofs.Segments

open Sys2Proof Sys2Proof.Machine

/-!
# The first settlement of a feed (R80, R82, R84, R88, R90)

A feed without a record: the level-1 entry, or its absence, says what is opened; a level-2 entry can only count an orphan. The whole
effect is written out once (`exec_firstSettlement`), for whichever slot the table yields.
-/

/-! ## The record -/

/-- A record with the orphans that a level-2 entry adds where nothing encloses an item (R88). -/
def withOrphan (e : Option Entry) (r : Segment) : Segment :=
  { r with orphanCount := r.orphanCount + if e.any (fun x => x.kind = .item) then 1 else 0 }

/-- The record that the first settlement of a feed leaves (R82, R84, R88). -/
def firstRecord (limits : Oct LimitSet) (f : Feed) (u : Nat) (es : List Entry) : Segment :=
  { withOrphan (entryOfLevel es 2) (newSegment limits f u (firstOpening (entryOfLevel es 1))) with latestMember := some u }

/-- The membership that the first settlement of a feed writes (R90). -/
def firstMembership (i u : Nat) : Membership := ⟨⟨i, u⟩, none, true, false⟩

theorem newSegment_level1 (limits : Oct LimitSet) (f : Feed) (u : Nat) (e : Option Entry) :
    isOpenLevel1 f (newSegment limits f u (firstOpening e)) = true :=
  isOpenLevel1_iff.mpr ⟨rfl, rfl, firstOpening_ne_item e⟩

theorem newSegment_limits (limits : Oct LimitSet) (f : Feed) (u : Nat) (o : Opening) {k : Fin 8} (hk : k.val = o.limitIndex.val) :
    (newSegment limits f u o).limits = limits.get k := by
  rw [Fin.ext hk]
  rfl

theorem entryLimit_val {e : Entry} (h : e.limitSet < 8) : (entryLimit e).val = e.limitSet := Nat.mod_eq_of_lt h

/-! ## The two steps and the membership -/

section first

variable {s : State} {f : Feed} {i u : Nat} {left : List (Nat × Segment)} {r : Segment}

/-- Where the level-1 record is no BREAK and there is no item, a level-2 entry counts an orphan at most (R88). -/
theorem applyLevel2_of_noItem {e : Option Entry} (htable : s.sg.table = tablePut left i r) (hfree : tableGet left i = none)
    (hcur : openLevel1 s.sg.table f = some (i, r)) (hkind : e ≠ none → r.kind ≠ .adBreak) (hitem : openItem s.sg.table f = none) :
    applyLevel2 s f u e = some (s.withSg { s.sg with table := tablePut left i (withOrphan e r) }) := by
  cases e with
  | none =>
    have hsame : withOrphan none r = r := rfl
    rw [applyLevel2, hsame, ← htable]
    rfl
  | some e =>
    have hclose : ∀ cause, s.closeItem f cause = s := fun cause => by rw [State.closeItem, hitem]; rfl
    simp only [applyLevel2, hcur, applyItem, if_neg (hkind nofun), hclose]
    cases hk : e.kind with
    | item =>
      have horphan : tableUpdate s.sg.table i (fun x => { x with orphanCount := x.orphanCount + 1 }) =
          tablePut left i (withOrphan (some e) r) := by
        rw [htable, tableUpdate_put hfree]
        simp [withOrphan, hk]
      exact congrArg (fun t => some (s.withSg { s.sg with table := t })) horphan
    | _ =>
      have hsame : withOrphan (some e) r = r := by simp [withOrphan, hk]
      rw [hsame, ← htable]
      rfl

/-- Membership where the feed has a level-1 record only (R90). -/
theorem resolveMembership_of_noItem {rest : List HandedTick} (htable : s.sg.table = tablePut left i r)
    (hfree : tableGet left i = none) (hitem : openItem s.sg.table f = none) (hopen : r.openTick = u) :
    resolveMembership s f u false rest (i, r) = { s with
      fiu := { s.fiu with
        history := s.fiu.history.update f (fun h => settleRecord h u (firstMembership i u))
        settledTo := s.fiu.settledTo.set f (some u)
        frontier := frontierOf (s.fiu.settledTo.set f (some u)) }
      sg := { s.sg with
        table := tablePut left i { r with latestMember := some u }
        inbox := s.sg.inbox.set f rest
        noticeLm := s.sg.noticeLm.set f (some ⟨u, firstMembership i u⟩)
        noticeCc := s.sg.noticeCc.set f (some ⟨u, firstMembership i u⟩) } } := by
  have hmembership : membershipAt u false (i, r) none = firstMembership i u := by
    simp [membershipAt, firstMembership, handleOf, hopen]
  simp only [resolveMembership, hitem, hmembership]
  rw [htable, tableUpdate_put hfree]
  rfl

/-- The part after the first settlement of feed `f`, at tick `u` with entries `es`, took slot `i` and left `left` of the table. -/
def firstSettled (s : State) (f : Feed) (u : Nat) (es : List Entry) (rest : List HandedTick) (i : Nat) (left : List (Nat × Segment)) :
    State :=
  { s with
    fiu := { s.fiu with
      history := s.fiu.history.update f (fun h => settleRecord h u (firstMembership i u))
      settledTo := s.fiu.settledTo.set f (some u)
      frontier := frontierOf (s.fiu.settledTo.set f (some u)) }
    lm := s.lm.opened f (firstOpening (entryOfLevel es 1)).kind ⟨i, u⟩
    sg := { s.sg with
      table := tablePut left i (firstRecord s.sg.limits f u es)
      inbox := s.sg.inbox.set f rest
      noticeLm := s.sg.noticeLm.set f (some ⟨u, firstMembership i u⟩)
      noticeCc := s.sg.noticeCc.set f (some ⟨u, firstMembership i u⟩) } }

variable {es : List Entry} {rest : List HandedTick}

theorem settleTick_first (hno : ∀ x ∈ s.sg.table, x.2.feed ≠ f) (hslot : takeSlot s.sg.table = some (i, left))
    (hone : entryOfLevel es 2 ≠ none → entryOfLevel es 1 = none) :
    settleTick s f ⟨u, es⟩ rest = some (firstSettled s f u es rest i left) := by
  obtain ⟨hfree, -, hsub⟩ := takeSlot_spec hslot
  have hleft : ∀ x ∈ left, x.2.feed ≠ f := fun x hx => hno x (hsub x hx)
  have hempty : openLevel1 s.sg.table f = none := find_of_noRecord hno fun r hr => (isOpenLevel1_iff.mp hr).1
  have hcur : ∀ r, isOpenLevel1 f r = true → openLevel1 (tablePut left i r) f = some (i, r) := fun r hr =>
    find_tablePut hr fun x hx hp => hleft x hx (isOpenLevel1_iff.mp hp).1
  have hitem : ∀ r, isOpenLevel1 f r = true → openItem (tablePut left i r) f = none := fun r hr =>
    List.find?_eq_none.mpr fun x hx hp => by
      rcases mem_tablePut hx with rfl | hx
      · exact (isOpenLevel1_iff.mp hr).2.2 (isOpenItem_iff.mp hp).2.2
      · exact hleft x hx (isOpenItem_iff.mp hp).1
  have hlevel1 := newSegment_level1 s.sg.limits f u (entryOfLevel es 1)
  have hcounted : isOpenLevel1 f
      (withOrphan (entryOfLevel es 2) (newSegment s.sg.limits f u (firstOpening (entryOfLevel es 1)))) = true := hlevel1
  have hkind : entryOfLevel es 2 ≠ none → (newSegment s.sg.limits f u (firstOpening (entryOfLevel es 1))).kind ≠ .adBreak := by
    intro h
    rw [hone h]
    nofun
  have hboundary : applyLevel1 s f u (entryOfLevel es 1) = some ({ s with
      sg := { s.sg with table := tablePut left i (newSegment s.sg.limits f u (firstOpening (entryOfLevel es 1))) }
      lm := s.lm.opened f (firstOpening (entryOfLevel es 1)).kind ⟨i, u⟩ }, false) := by
    simp only [applyLevel1, hempty, applyFirst_eq, openSegment_of_slot hslot, Option.map_some]
  simp only [settleTick, hboundary]
  rw [applyLevel2_of_noItem rfl hfree (hcur _ hlevel1) hkind (hitem _ hlevel1)]
  simp only [State.withSg_sg]
  rw [hcur _ hcounted, Option.map_some]
  exact congrArg some (resolveMembership_of_noItem rfl hfree (hitem _ hcounted) rfl)

theorem exec_firstSettlement (hinbox : s.sg.inbox.get f = ⟨u, es⟩ :: rest) (hlm : s.sg.noticeLm.get f = none)
    (hcc : s.sg.noticeCc.get f = none) (hno : ∀ x ∈ s.sg.table, x.2.feed ≠ f) (hslot : takeSlot s.sg.table = some (i, left))
    (hone : entryOfLevel es 2 ≠ none → entryOfLevel es 1 = none) :
    exec (.settlement f) s = .next (firstSettled s f u es rest i left) :=
  exec_settlement_due hinbox (maySettle_iff.mpr ⟨hlm, hcc, fun x hx hf => absurd hf (hno x hx)⟩) (settleTick_first hno hslot hone)

theorem firstSettled_get_slot : tableGet (firstSettled s f u es rest i left).sg.table i = some (firstRecord s.sg.limits f u es) := by
  rw [firstSettled, tableGet_put, if_pos rfl]

theorem firstSettled_get_other (hslot : takeSlot s.sg.table = some (i, left)) {j : Nat} (hj : j ≠ i) :
    tableGet (firstSettled s f u es rest i left).sg.table j = tableGet s.sg.table j := by
  rw [firstSettled, tableGet_put, if_neg hj]
  exact (takeSlot_spec hslot).2.1 j hj

theorem firstSettled_membership {q : TickRecord} (hq : q ∈ (firstSettled s f u es rest i left).fiu.history.get f) (ht : q.tick = u) :
    q.membership = some (firstMembership i u) := by
  simp only [firstSettled, Oct.get_update, if_true, settleRecord] at hq
  obtain ⟨p, -, rfl⟩ := List.mem_map.mp hq
  split at ht
  · rw [if_pos ‹_›]
  · exact absurd ht ‹_›

end first

/-! ## One entry -/

theorem entryOfLevel_single (e : Entry) (n : Nat) : entryOfLevel [e] n = if e.kind.level = n then some e else none := by
  simp only [entryOfLevel, List.find?_cons, List.find?_nil]
  split <;> simp_all

theorem single_oneLevel (e : Entry) : entryOfLevel [e] 2 ≠ none → entryOfLevel [e] 1 = none := by
  simp only [entryOfLevel_single]
  cases e.kind <;> simp [AnnounceKind.level]

/-- A single entry opens its own kind when it is a PROGRAMME or a BREAK, and else an UNSCHEDULED segment (R84). -/
theorem firstOpening_single (e : Entry) : firstOpening (entryOfLevel [e] 1) =
    match e.kind with
    | .programme => openProgramme e
    | .adBreak => openBreak e
    | _ => openUnscheduled false := by
  rw [entryOfLevel_single]
  cases hk : e.kind <;> simp [AnnounceKind.level, firstOpening, hk]

/-! ## The slot of the oldest DONE record (R80) -/

/-- The choice of `evictable` as it goes along the table. -/
def evictStep (best : Option (Nat × Nat)) (e : Nat × Segment) : Option (Nat × Nat) :=
  match e.2.verdict, e.2.closeSeq with
  | some .done, some q =>
    match best with
    | none => some (e.1, q)
    | some b => if q < b.2 then some (e.1, q) else some b
  | _, _ => best

theorem evictable_eq (table : List (Nat × Segment)) : evictable table = (table.foldl evictStep none).map (·.1) := rfl

/-- A record changes the choice only when it is DONE, with a close sequence below that of the former choice. -/
theorem evictStep_cases (best : Option (Nat × Nat)) (e : Nat × Segment) :
    evictStep best e = best ∨ ∃ q, e.2.verdict = some .done ∧ e.2.closeSeq = some q ∧ evictStep best e = some (e.1, q) ∧
      ∀ b, best = some b → q < b.2 := by
  unfold evictStep
  split
  · rename_i q hv hq
    cases best with
    | none => exact .inr ⟨q, hv, hq, rfl, nofun⟩
    | some b =>
      by_cases hlt : q < b.2
      · exact .inr ⟨q, hv, hq, if_pos hlt, fun c hc => Option.some.inj hc ▸ hlt⟩
      · exact .inl (if_neg hlt)
  · exact .inl rfl

/-- Every DONE record of a list has a close sequence above `q`. -/
def doneAbove (q : Nat) (es : List (Nat × Segment)) : Prop :=
  ∀ x ∈ es, x.2.verdict = some .done → ∀ z, x.2.closeSeq = some z → q < z

section eviction

variable {q : Nat} {es : List (Nat × Segment)}

/-- Before the oldest record every choice has a greater close sequence. -/
theorem evictFold_above (hes : doneAbove q es) {best : Option (Nat × Nat)}
    (hbest : ∀ b, best = some b → q < b.2) : ∀ b, es.foldl evictStep best = some b → q < b.2 := by
  induction es generalizing best with
  | nil => exact hbest
  | cons x es ih =>
    refine ih (fun y hy => hes y (List.mem_cons_of_mem _ hy)) fun b hb => ?_
    rcases evictStep_cases best x with hsame | ⟨z, hv, hz, hnew, -⟩
    · exact hbest b (hsame ▸ hb)
    · obtain rfl := Option.some.inj (hnew.symm.trans hb)
      exact hes x List.mem_cons_self hv z hz

/-- After the oldest record the choice stays. -/
theorem evictFold_stays {d : Nat} (hes : doneAbove q es) :
    es.foldl evictStep (some (d, q)) = some (d, q) := by
  induction es with
  | nil => rfl
  | cons x es ih =>
    rcases evictStep_cases (some (d, q)) x with hsame | ⟨z, hv, hz, -, hlt⟩
    · rw [List.foldl_cons, hsame]
      exact ih fun y hy => hes y (List.mem_cons_of_mem _ hy)
    · exact absurd (hlt _ rfl) (Nat.lt_asymm (hes x List.mem_cons_self hv z hz))

end eviction

theorem evictable_of_oldest {table : List (Nat × Segment)} {d q : Nat} {old : Segment} (hs : tableSorted table)
    (hd : tableGet table d = some old) (hv : old.verdict = some .done) (hq : old.closeSeq = some q)
    (hold : ∀ x ∈ table, x.1 ≠ d → x.2.verdict = some .done → ∀ z, x.2.closeSeq = some z → q < z) :
    evictable table = some d := by
  obtain ⟨before, after, rfl⟩ := List.append_of_mem (mem_of_tableGet hd)
  obtain ⟨-, hafter, hbefore⟩ := List.pairwise_append.mp hs
  have habove : doneAbove q before := fun x hx =>
    hold x (List.mem_append_left _ hx) (Nat.ne_of_lt (hbefore x hx _ List.mem_cons_self))
  have hlow := evictFold_above habove (best := none) nofun
  have hhigh : doneAbove q after := fun x hx =>
    hold x (List.mem_append_right _ (List.mem_cons_of_mem _ hx)) (Nat.ne_of_gt ((List.pairwise_cons.mp hafter).1 x hx))
  have hchosen : evictStep (before.foldl evictStep none) (d, old) = some (d, q) := by
    simp only [evictStep, hv, hq]
    cases hbest : before.foldl evictStep none with
    | none => rfl
    | some b => exact if_pos (hlow b hbest)
  rw [evictable_eq, List.foldl_append, List.foldl_cons, hchosen, evictFold_stays hhigh, Option.map_some]

/-- A full table yields the slot of its oldest DONE record. -/
theorem takeSlot_full {table : List (Nat × Segment)} {d : Nat} (hfull : ∀ j, j < 128 → tableGet table j ≠ none)
    (hd : evictable table = some d) : takeSlot table = some (d, tableErase table d) := by
  have hnone : tableFree table Config.segmentSlots = none :=
    tableFree_eq_none.mpr fun j hj => Option.isSome_iff_ne_none.mpr (hfull j hj)
  simp only [takeSlot, hnone, hd, Option.map_some]

/-! ## The obligation -/

/-- Settles O33: `exec_firstSettlement` with no entry, with one, and in the slot of the record evicted. -/
theorem firstSettlementOpensUnscheduled : Obligations.FirstSettlementOpensUnscheduled := by
  unfold Obligations.FirstSettlementOpensUnscheduled
  refine ⟨?noEntry, ?oneEntry, ?fullTable⟩
  case noEntry =>
    intro f s u i rest hinbox hlm hcc hno _ hi hfree hlow
    have hslot := takeSlot_free hi hfree hlow
    refine ⟨_, _, exec_firstSettlement hinbox hlm hcc hno hslot (by simp [entryOfLevel]),
      ⟨firstSettled_get_slot, rfl, rfl, rfl, rfl, rfl, rfl, rfl, rfl, rfl, rfl, rfl⟩, fun j => firstSettled_get_other hslot,
      ?binding, Oct.get_set_same _ _ _, Oct.get_set_same _ _ _, Oct.get_set_same _ _ _, Oct.get_set_same _ _ _,
      fun q => firstSettled_membership, rfl, rfl, rfl, rfl, rfl, rfl, rfl, rfl⟩
    case binding => exact congrArg Integrator.binding (Oct.get_set_same _ _ _)
  case oneEntry =>
    intro f s u i rest e hinbox hlm hcc hno _ hi hfree hlow hlimit
    have hslot := takeSlot_free hi hfree hlow
    have hopening := firstOpening_single e
    refine ⟨_, firstRecord s.sg.limits f u [e], exec_firstSettlement hinbox hlm hcc hno hslot (single_oneLevel e),
      ⟨firstSettled_get_slot, rfl, rfl, rfl, rfl, rfl, ?enclosing, rfl, rfl, rfl, rfl, fun k => newSegment_limits _ f u _, rfl⟩,
      ?programme, ?adBreak, ?unscheduled, ?orphan, fun j => firstSettled_get_other hslot, rfl, ?lm, Oct.get_set_same _ _ _,
      Oct.get_set_same _ _ _, Oct.get_set_same _ _ _, Oct.get_set_same _ _ _, rfl, rfl, rfl, rfl, rfl, rfl, rfl, rfl⟩
    case enclosing =>
      show (firstOpening (entryOfLevel [e] 1)).enclosing = none
      rw [hopening]
      cases e.kind <;> rfl
    case programme =>
      intro hk
      rw [hk] at hopening
      simp only [firstRecord, withOrphan, newSegment, hopening, openProgramme, entryLimit_val hlimit, and_self]
    case adBreak =>
      intro hk
      rw [hk] at hopening
      simp only [firstRecord, withOrphan, newSegment, hopening, openBreak, entryLimit_val hlimit, and_self]
    case unscheduled =>
      intro hprogramme hbreak
      have hother : firstOpening (entryOfLevel [e] 1) = openUnscheduled false := by
        rw [hopening]
        cases hk : e.kind with
        | programme => exact absurd hk hprogramme
        | adBreak => exact absurd hk hbreak
        | _ => rfl
      simp [firstRecord, withOrphan, newSegment, hother, openUnscheduled]
    case orphan =>
      simp only [firstRecord, withOrphan, newSegment, entryOfLevel_single]
      cases hk : e.kind <;> simp [AnnounceKind.level, hk]
    case lm =>
      simp only [firstSettled, hopening]
      cases e.kind <;> rfl
  case fullTable =>
    intro f s u d q rest old hinbox hlm hcc hno hs hfull hd _ hv hq hold
    have hslot := takeSlot_full hfull (evictable_of_oldest hs hd hv hq hold)
    exact ⟨_, _, exec_firstSettlement hinbox hlm hcc hno hslot (by simp [entryOfLevel]), firstSettled_get_slot, rfl, rfl, rfl, rfl,
      fun j => firstSettled_get_other hslot⟩

end Sys2Proof.Proofs.Segments
end

section

namespace Sys2Proof.Proofs.Segments

open Sys2Proof Sys2Proof.Machine

/-!
# A settlement with room completes (R80, R83 to R88)

Each of the two steps of a settlement opens one record at most, and nothing it does before takes a slot: with two free slots the first
step leaves the higher one free. After each step an OPEN level-1 record is found, so that the membership can be written.
-/

/-! ## What closing and changing records keep -/

/-- Table `b` has the entries of `a`, changed in other fields than their feed and kind, in the same slots. -/
structure SlotsKept (a b : List (Nat × Segment)) : Prop where
  sorted : tableSorted a → tableSorted b
  free : ∀ k, tableGet a k = none → tableGet b k = none
  kept : ∀ x ∈ a, ∃ y ∈ b, y.1 = x.1 ∧ y.2.feed = x.2.feed ∧ y.2.kind = x.2.kind

theorem SlotsKept.rfl {a : List (Nat × Segment)} : SlotsKept a a :=
  ⟨id, fun _ => id, fun x hx => ⟨x, hx, Eq.refl _, Eq.refl _, Eq.refl _⟩⟩

theorem SlotsKept.trans {a b c : List (Nat × Segment)} (hab : SlotsKept a b) (hbc : SlotsKept b c) : SlotsKept a c where
  sorted := hbc.sorted ∘ hab.sorted
  free k := hbc.free k ∘ hab.free k
  kept x hx := by
    obtain ⟨y, hy, hslot, hfeed, hkind⟩ := hab.kept x hx
    obtain ⟨z, hz, hslot', hfeed', hkind'⟩ := hbc.kept y hy
    exact ⟨z, hz, hslot'.trans hslot, hfeed'.trans hfeed, hkind'.trans hkind⟩

theorem slotsKept_update (t : List (Nat × Segment)) (i : Nat) {g : Segment → Segment}
    (hg : ∀ r, (g r).feed = r.feed ∧ (g r).kind = r.kind) : SlotsKept t (tableUpdate t i g) where
  sorted hs := tableSorted_update hs i g
  free k hk := by rw [tableGet_update, hk, Option.map_none, ite_self]
  kept x hx := by
    refine ⟨_, mem_tableUpdate hx, rfl, ?_⟩
    split
    · exact hg x.2
    · exact ⟨rfl, rfl⟩

theorem slotsKept_updateSegment (s : State) (i : Nat) {g : Segment → Segment}
    (hg : ∀ r, (g r).feed = r.feed ∧ (g r).kind = r.kind) : SlotsKept s.sg.table (s.updateSegment i g).sg.table :=
  slotsKept_update _ i hg

section closing

variable (s : State) (f : Feed) (cause : AnnounceKind × Nat)

theorem slotsKept_closeFound (found : Option (Nat × Segment)) : SlotsKept s.sg.table (s.closeFound found cause).sg.table := by
  cases found with
  | none => exact .rfl
  | some e =>
    show SlotsKept s.sg.table (s.closeSegment e cause).sg.table
    rw [closeSegment_table]
    exact slotsKept_update _ _ fun r => ⟨rfl, rfl⟩

theorem slotsKept_closeItem : SlotsKept s.sg.table (s.closeItem f cause).sg.table := slotsKept_closeFound s cause _

theorem slotsKept_closeLevel1 : SlotsKept s.sg.table (s.closeLevel1 f cause).sg.table := slotsKept_closeFound s cause _

theorem slotsKept_closeSuspended : SlotsKept s.sg.table (s.closeSuspended f cause).sg.table := slotsKept_closeFound s cause _

/-- The item and the level-1 record close (R85, R87). -/
theorem slotsKept_closeBoth : SlotsKept s.sg.table ((s.closeItem f cause).closeLevel1 f cause).sg.table :=
  (slotsKept_closeItem s f cause).trans (slotsKept_closeLevel1 _ f cause)

/-- The item, the level-1 record and the SUSPENDED programme close (R85, R87). -/
theorem slotsKept_closeAll : SlotsKept s.sg.table (((s.closeItem f cause).closeLevel1 f cause).closeSuspended f cause).sg.table :=
  (slotsKept_closeBoth s f cause).trans (slotsKept_closeSuspended _ f cause)

end closing

/-! ## An OPEN level-1 record -/

/-- The feed has an OPEN level-1 record. -/
def hasLevel1 (table : List (Nat × Segment)) (f : Feed) : Prop := ∃ x ∈ table, isOpenLevel1 f x.2 = true

theorem hasLevel1_iff {table : List (Nat × Segment)} {f : Feed} : hasLevel1 table f ↔ ∃ x, openLevel1 table f = some x := by
  rw [hasLevel1, ← List.find?_isSome, Option.isSome_iff_exists]
  exact Iff.rfl

/-- A change that leaves level-1 records OPEN keeps the feed's. -/
theorem hasLevel1_updateSegment {s : State} {f : Feed} {i : Nat} {g : Segment → Segment}
    (hg : ∀ r, isOpenLevel1 f r = true → isOpenLevel1 f (g r) = true) (h : hasLevel1 s.sg.table f) :
    hasLevel1 (s.updateSegment i g).sg.table f := by
  obtain ⟨x, hx, hopen⟩ := h
  refine ⟨_, mem_tableUpdate hx, ?_⟩
  split
  · exact hg _ hopen
  · exact hopen

/-- The item's close leaves every level-1 record as it is. -/
theorem mem_closeItem {s : State} {f : Feed} {x : Nat × Segment} (hs : tableSorted s.sg.table) (hx : x ∈ s.sg.table)
    (hopen : isOpenLevel1 f x.2 = true) (cause : AnnounceKind × Nat) : x ∈ (s.closeItem f cause).sg.table := by
  unfold State.closeItem
  cases hfind : openItem s.sg.table f with
  | none => exact hx
  | some y =>
    obtain ⟨hy, hitem⟩ := openItem_spec hfind
    have hslot : x.1 ≠ y.1 := by
      intro heq
      have hget := tableGet_of_mem hs hx
      rw [heq, tableGet_of_mem hs hy] at hget
      rw [Option.some.inj hget] at hitem
      exact (isOpenLevel1_iff.mp hopen).2.2 (isOpenItem_iff.mp hitem).2.2
    show x ∈ (s.closeSegment y cause).sg.table
    rw [closeSegment_table]
    exact mem_tableUpdate_other hx hslot

/-! ## Opening a record where a slot is free -/

/-- With slot `k` free a record can be opened: it takes slot `k` or a lower one and displaces nothing. -/
theorem openSegment_completes {s : State} {k : Nat} (hk : k < 128) (hfree : tableGet s.sg.table k = none)
    (f : Feed) (u : Nat) (o : Opening) :
    ∃ t m, s.openSegment f u o = some t ∧ m ≤ k ∧ tableGet s.sg.table m = none ∧
      t.sg.table = tablePut s.sg.table m (newSegment s.sg.limits f u o) := by
  cases hm : tableFree s.sg.table Config.segmentSlots with
  | none =>
    have := tableFree_eq_none.mp hm k hk
    simp [hfree] at this
  | some m =>
    obtain ⟨-, hmfree, hlow⟩ := tableFree_eq_some.mp hm
    have hslot : takeSlot s.sg.table = some (m, s.sg.table) := by simp only [takeSlot, hm]
    exact ⟨_, m, openSegment_of_slot hslot f u o, Nat.le_of_not_lt fun hlt => hlow k hlt hfree, hmfree, rfl⟩

/-! ## The level-1 step (R83 to R87) -/

/-- What the level-1 step leaves to the level-2 step: a table in its canonical form, with slot `j` free and an OPEN level-1 record. -/
structure ReadyForLevel2 (t : State) (f : Feed) (j : Nat) : Prop where
  sorted : tableSorted t.sg.table
  free : tableGet t.sg.table j = none
  level1 : hasLevel1 t.sg.table f

section level1

variable {s : State} {f : Feed} {u i j : Nat}

/-- A level-1 record is opened after nothing but closes and changes: of two free slots the higher one is left. -/
theorem openSegment_ready {s' : State} {o : Opening} (hs : tableSorted s.sg.table) (hij : i < j) (hj : j < 128)
    (hi : tableGet s.sg.table i = none) (hjfree : tableGet s.sg.table j = none) (hkept : SlotsKept s.sg.table s'.sg.table)
    (hkind : o.kind ≠ .item) : ∃ t, s'.openSegment f u o = some t ∧ ReadyForLevel2 t f j := by
  obtain ⟨t, m, ht, hm, -, htable⟩ := openSegment_completes (hij.trans hj) (hkept.free i hi) f u o
  refine ⟨t, ht, ?_, ?_, ?_⟩
  · rw [htable]
    exact tableSorted_put (hkept.sorted hs) _ _
  · rw [htable, tableGet_put, if_neg (Nat.ne_of_gt (Nat.lt_of_le_of_lt hm hij))]
    exact hkept.free j hjfree
  · rw [htable]
    exact ⟨_, mem_tablePut_self _ _ _, isOpenLevel1_iff.mpr ⟨rfl, rfl, hkind⟩⟩

/-- A programme is resumed after nothing but closes and changes: it is the OPEN level-1 record (R85). -/
theorem resumed_ready {s' : State} {p : Nat × Segment} {late : Bool} (hs : tableSorted s.sg.table)
    (hjfree : tableGet s.sg.table j = none) (hkept : SlotsKept s.sg.table s'.sg.table) (hp : p ∈ s.sg.table) (hfeed : p.2.feed = f)
    (hkind : p.2.kind = .programme) : ReadyForLevel2 (s'.updateSegment p.1 (fun r => r.resumed late)) f j := by
  have hresumed := hkept.trans (slotsKept_updateSegment s' p.1 (g := fun r => r.resumed late) fun r => ⟨rfl, rfl⟩)
  obtain ⟨y, hy, hslot, hyfeed, hykind⟩ := hkept.kept p hp
  have hopen : isOpenLevel1 f (y.2.resumed late) = true := by
    refine isOpenLevel1_iff.mpr ⟨hyfeed.trans hfeed, rfl, ?_⟩
    rw [show (y.2.resumed late).kind = .programme from hykind.trans hkind]
    nofun
  exact ⟨hresumed.sorted hs, hresumed.free j hjfree, (y.1, y.2.resumed late), List.mem_map.mpr ⟨y, hy, if_pos hslot⟩, hopen⟩

variable (hs : tableSorted s.sg.table) (hij : i < j) (hj : j < 128) (hi : tableGet s.sg.table i = none)
  (hjfree : tableGet s.sg.table j = none)

include hs hij hj hi hjfree

theorem applyProgramme_ready (hsusp : ∀ x ∈ s.sg.table, x.2.state = .suspended → x.2.kind = .programme) (e : Entry)
    {cur : Nat × Segment} (hcur : openLevel1 s.sg.table f = some cur) :
    ∃ t b, applyProgramme s f u e cur = some (t, b) ∧ ReadyForLevel2 t f j := by
  simp only [applyProgramme]
  split
  · exact ⟨s, false, rfl, hs, hjfree, hasLevel1_iff.mpr ⟨cur, hcur⟩⟩
  · cases hfind : suspendedProgramme s.sg.table f with
    | none =>
      obtain ⟨t, ht, hready⟩ := openSegment_ready (f := f) (u := u) (o := openProgramme e) hs hij hj hi hjfree
        (slotsKept_closeBoth s f (.programme, e.segmentId)) nofun
      exact ⟨t, false, by simp only [ht, Option.map_some], hready⟩
    | some p =>
      simp only
      split
      · obtain ⟨hp, hsuspended⟩ := suspendedProgramme_spec hfind
        obtain ⟨hfeed, hstate⟩ := isSuspended_iff.mp hsuspended
        exact ⟨_, true, rfl, resumed_ready hs hjfree (slotsKept_closeBoth s f _) hp hfeed (hsusp p hp hstate)⟩
      · obtain ⟨t, ht, hready⟩ := openSegment_ready (f := f) (u := u) (o := openProgramme e) hs hij hj hi hjfree
          (slotsKept_closeAll s f (.programme, e.segmentId)) nofun
        exact ⟨t, false, by simp only [ht, Option.map_some], hready⟩

theorem applyBreak_ready (e : Entry) (cur : Nat × Segment) : ∃ t, applyBreak s f u e cur = some t ∧ ReadyForLevel2 t f j := by
  refine openSegment_ready hs hij hj hi hjfree ?_ nofun
  refine (slotsKept_closeItem s f (.adBreak, e.segmentId)).trans ?_
  split
  · exact slotsKept_updateSegment _ _ fun r => ⟨rfl, rfl⟩
  · exact slotsKept_closeLevel1 _ f _

theorem applyEnd_ready (e : Entry) : ∃ t, applyEnd s f u e = some t ∧ ReadyForLevel2 t f j :=
  openSegment_ready hs hij hj hi hjfree (slotsKept_closeAll s f _) nofun

theorem applyLevel1_ready (hsusp : ∀ x ∈ s.sg.table, x.2.state = .suspended → x.2.kind = .programme) (e : Option Entry) :
    ∃ t b, applyLevel1 s f u e = some (t, b) ∧ ReadyForLevel2 t f j := by
  unfold applyLevel1
  cases hcur : openLevel1 s.sg.table f with
  | none =>
    obtain ⟨t, ht, hready⟩ := openSegment_ready (f := f) (u := u) hs hij hj hi hjfree .rfl (firstOpening_ne_item e)
    exact ⟨t, false, by simp only [applyFirst_eq, ht, Option.map_some], hready⟩
  | some cur =>
    have hsame : ReadyForLevel2 s f j := ⟨hs, hjfree, hasLevel1_iff.mpr ⟨cur, hcur⟩⟩
    cases e with
    | none => exact ⟨s, false, rfl, hsame⟩
    | some e =>
      simp only
      cases e.kind with
      | programme => exact applyProgramme_ready hs hij hj hi hjfree hsusp e hcur
      | adBreak =>
        obtain ⟨t, ht, hready⟩ := applyBreak_ready (f := f) (u := u) hs hij hj hi hjfree e cur
        exact ⟨t, false, by simp only [ht, Option.map_some], hready⟩
      | ending =>
        obtain ⟨t, ht, hready⟩ := applyEnd_ready (f := f) (u := u) hs hij hj hi hjfree e
        exact ⟨t, false, by simp only [ht, Option.map_some], hready⟩
      | _ => exact ⟨s, false, rfl, hsame⟩

end level1

/-! ## The level-2 step (R88) -/

section level2

variable {s : State} {f : Feed} {u j : Nat} (h : ReadyForLevel2 s f j) (hj : j < 128)

include h hj

theorem applyItem_completes (e : Entry) {cur : Nat × Segment} (hcur : openLevel1 s.sg.table f = some cur) :
    ∃ t, applyItem s f u e cur = some t ∧ hasLevel1 t.sg.table f := by
  obtain ⟨hmem, hopen⟩ := openLevel1_spec hcur
  unfold applyItem
  split
  · have hclosed := slotsKept_closeItem s f (.item, e.segmentId)
    obtain ⟨t, m, ht, -, hm, htable⟩ := openSegment_completes hj (hclosed.free j h.free) f u
      (openItemFrom e (handleOf cur))
    have hkept : cur ∈ t.sg.table := by
      rw [htable]
      exact mem_tablePut_of_free (hclosed.sorted h.sorted) hm (mem_closeItem h.sorted hmem hopen _)
    refine ⟨_, by rw [ht, Option.map_some], ?_⟩
    exact hasLevel1_updateSegment (fun r hr => hr) ⟨cur, hkept, hopen⟩
  · exact ⟨_, rfl, hasLevel1_updateSegment (fun r hr => hr) ⟨cur, hmem, hopen⟩⟩

theorem applyLevel2_completes (e : Option Entry) : ∃ t, applyLevel2 s f u e = some t ∧ hasLevel1 t.sg.table f := by
  obtain ⟨cur, hcur⟩ := hasLevel1_iff.mp h.level1
  obtain ⟨hmem, hopen⟩ := openLevel1_spec hcur
  unfold applyLevel2
  cases e with
  | none => exact ⟨s, rfl, h.level1⟩
  | some e =>
    simp only [hcur]
    cases e.kind with
    | item => exact applyItem_completes h hj e hcur
    | itemEnd => exact ⟨_, rfl, cur, mem_closeItem h.sorted hmem hopen _, hopen⟩
    | _ => exact ⟨s, rfl, h.level1⟩

end level2

/-- Settles O3: both steps of the settlement find their slot, and a level-1 record for the membership. -/
theorem settlementWithRoomCompletes : Obligations.SettlementWithRoomCompletes := by
  unfold Obligations.SettlementWithRoomCompletes
  intro f s i j hs hsusp hij hj hi hjfree
  cases hinbox : s.sg.inbox.get f with
  | nil => exact ⟨s, exec_settlement_empty hinbox⟩
  | cons ht rest =>
    by_cases hmay : maySettle s f = true
    · obtain ⟨s1, resumed, h1, hready⟩ :=
        applyLevel1_ready (f := f) (u := ht.tick) hs hij hj hi hjfree hsusp (entryOfLevel ht.entries 1)
      obtain ⟨s2, h2, hlevel1⟩ := applyLevel2_completes (u := ht.tick) hready hj (entryOfLevel ht.entries 2)
      obtain ⟨l1, hl1⟩ := hasLevel1_iff.mp hlevel1
      have hsettle : settleTick s f ht rest = some (resolveMembership s2 f ht.tick resumed rest l1) := by
        simp only [settleTick, h1, h2, hl1, Option.map_some]
      exact ⟨_, exec_settlement_due hinbox hmay hsettle⟩
    · exact ⟨s, exec_settlement_notDue hinbox hmay⟩

end Sys2Proof.Proofs.Segments
end

section

namespace Sys2Proof.Proofs.Incidents

open Sys2Proof Sys2Proof.Machine

/-!
# What the Incident Log and its holds rest on, and the commands that leave it

The invariants of chapter 6 read the log, the serial counter, the cursors, the Hold Table and its counter. Most commands leave all of that
as it stands: `incidentView` is that part of the state. The others that are not of the Incident Unit or the Retention Unit end jobs of the
Export Unit, and release the pins of those: `KeepsIncidents` says that no more happened. One lemma for each operation that several commands
share.
-/

/-- The part of the state that the invariant of the incidents reads (R107, R112, R114, R121). -/
structure IncidentView where
  log : List Incident
  nextSerial : Nat
  cursors : Tri Nat
  holds : List (Nat × Hold)
  counter : Nat

/-- The view of a state. -/
def incidentView (s : State) : IncidentView where
  log := s.iu.log
  nextSerial := s.iu.nextSerial
  cursors := s.iu.cursors
  holds := s.ru.holds
  counter := s.ru.counter

/-- Entry `i` of a Hold Table is the hold of incident `n`. -/
def incidentHolds (holds : List (Nat × Hold)) (i n : Nat) : Prop := (tableGet holds i).map (·.owner) = some (.incident n)

/-- Log, counters and cursors stand, and no hold went but such as no incident owns. -/
structure KeepsIncidents (s t : State) : Prop where
  log : t.iu.log = s.iu.log
  nextSerial : t.iu.nextSerial = s.iu.nextSerial
  cursors : t.iu.cursors = s.iu.cursors
  counter : t.ru.counter = s.ru.counter
  holds : t.ru.holds.Sublist s.ru.holds
  owned : ∀ i n, incidentHolds t.ru.holds i n ↔ incidentHolds s.ru.holds i n

theorem KeepsIncidents.of_view {s t : State} (h : incidentView t = incidentView s) : KeepsIncidents s t := by
  have hholds : t.ru.holds = s.ru.holds := congrArg IncidentView.holds h
  exact ⟨congrArg IncidentView.log h, congrArg IncidentView.nextSerial h, congrArg IncidentView.cursors h,
    congrArg IncidentView.counter h, hholds ▸ .refl _, fun i n => by rw [hholds]⟩

theorem KeepsIncidents.refl (s : State) : KeepsIncidents s s := .of_view rfl

theorem KeepsIncidents.trans {s t u : State} (h : KeepsIncidents s t) (g : KeepsIncidents t u) : KeepsIncidents s u where
  log := g.log.trans h.log
  nextSerial := g.nextSerial.trans h.nextSerial
  cursors := g.cursors.trans h.cursors
  counter := g.counter.trans h.counter
  holds := g.holds.trans h.holds
  owned i n := (g.owned i n).trans (h.owned i n)

/-- A change of what the view does not show, after the rest. -/
theorem KeepsIncidents.then_view {s t u : State} (h : KeepsIncidents s t) (g : incidentView u = incidentView t) : KeepsIncidents s u :=
  h.trans (.of_view g)

/-- The same before the rest. -/
theorem KeepsIncidents.after_view {s t u : State} (h : KeepsIncidents t u) (g : incidentView t = incidentView s) : KeepsIncidents s u :=
  (KeepsIncidents.of_view g).trans h

section blocks

variable (s : State)

@[simp] theorem view_withSu (x : Su) : incidentView (s.withSu x) = incidentView s := rfl
@[simp] theorem view_withRc (x : Rc) : incidentView (s.withRc x) = incidentView s := rfl
@[simp] theorem view_withAc (x : Ac) : incidentView (s.withAc x) = incidentView s := rfl
@[simp] theorem view_withXu (x : Xu) : incidentView (s.withXu x) = incidentView s := rfl

end blocks

/-! ## Releases -/

/-- A release leaves a table that lies in the one before it. -/
theorem releaseOwned_sublist (ru : Ru) (i : Nat) (o : Owner) : (ru.releaseOwned i o).holds.Sublist ru.holds := by
  rw [Ru.releaseOwned_eq]
  split
  · exact List.filter_sublist
  · exact .refl _

/-- What incidents hold after a release by owner (R130): entry `i` goes when `o` owns it. -/
theorem incidentHolds_releaseOwned (ru : Ru) (i j n : Nat) (o : Owner) :
    incidentHolds (ru.releaseOwned i o).holds j n ↔ incidentHolds ru.holds j n ∧ ¬ (j = i ∧ o = .incident n) := by
  unfold incidentHolds
  rw [Ru.releaseOwned_eq]
  split
  · rename_i ho
    rw [Ru.release, tableGet_erase]
    split
    · subst_vars
      rw [ho]
      simp
    · simp [*]
  · rename_i ho
    refine ⟨fun h => ⟨h, fun ⟨hj, hn⟩ => ho (hj ▸ hn ▸ h)⟩, And.left⟩

/-- The release of a job's pin keeps what the incidents rest on (R112, R187). -/
theorem keeps_releasePin {s t : State} {i n : Nat} (hiu : t.iu = s.iu) (hru : t.ru = s.ru.releaseOwned i (.job n)) :
    KeepsIncidents s t where
  log := congrArg Iu.log hiu
  nextSerial := congrArg Iu.nextSerial hiu
  cursors := congrArg Iu.cursors hiu
  counter := hru ▸ (Ru.releaseOwned_rest _ _ _).1
  holds := hru ▸ releaseOwned_sublist _ _ _
  owned j m := by
    rw [hru, incidentHolds_releaseOwned]
    exact ⟨And.left, fun h => ⟨h, fun ⟨_, ho⟩ => by cases ho⟩⟩

/-! ## Requests and frames -/

section requests

variable {α : Type} {k : Nat} {l : Link} {p : Payload α} {s t : State} {body : α → State → State × Reply}

theorem keeps_received (h : KeepsIncidents s t) : KeepsIncidents s (s.received t) := by
  unfold State.received
  split
  · exact .refl s
  · exact h

/-- What stands wherever the incidents are kept, and is kept by the block that takes a request, is kept by the request's command. -/
theorem passRequest_keeps {P : State → Prop} (hP : ∀ {x y : State}, KeepsIncidents x y → P x → P y)
    (hbody : ∀ a x, P x → P (body a x).1) (hs : P s) : P (passRequest k l p s body) := by
  have answered : ∀ r, P (s.withLi (s.li.answer l (BitVec.ofNat 8 k) r)) := fun r => hP (x := s) (.of_view rfl) hs
  unfold passRequest State.received
  split
  · exact hs
  · split
    · cases p with
      | wrongLength => exact answered _
      | fits a => exact hP (x := (body a (s.withLi (s.li.await l (BitVec.ofNat 8 k)))).1) (.of_view rfl) (hbody a _ (hP (x := s) (.of_view rfl) hs))
    · exact answered _

theorem keeps_passRequest (hbody : ∀ a x, KeepsIncidents x (body a x).1) : KeepsIncidents s (passRequest k l p s body) :=
  passRequest_keeps (P := KeepsIncidents s) (fun h g => g.trans h) (fun a x h => h.trans (hbody a x)) (.refl s)

/-- A request whose block leaves the view leaves it. -/
theorem keeps_passRequest_of_view (hbody : ∀ a x, incidentView (body a x).1 = incidentView x) :
    KeepsIncidents s (passRequest k l p s body) := keeps_passRequest fun a x => .of_view (hbody a x)

theorem keeps_answerRequest (hbody : ∀ a x, incidentView (body a x).1 = incidentView x) :
    KeepsIncidents s (answerRequest k l p s body) := by
  unfold answerRequest
  apply keeps_received
  split
  · cases p with
    | wrongLength => exact .of_view rfl
    | fits a => exact .of_view (hbody a s)
  · exact .of_view rfl

end requests

/-! ## The Recorder and the Archive Controller -/

section archive

variable (s : State)

theorem view_unrecorded (c : Nat) : incidentView (s.unrecorded c) = incidentView s := by
  unfold State.unrecorded
  split <;> rfl

theorem view_grantWrite (w : PageWrite) : incidentView (grantWrite s w) = incidentView s := by
  unfold grantWrite
  split
  · exact view_unrecorded s _
  · split
    · exact view_unrecorded s _
    · unfold writeStep
      simp only
      split
      · rfl
      · exact view_unrecorded _ _

theorem view_writeDone (x : Access) (w : PageWrite) (p : Nat) : incidentView (writeDone s x w p) = incidentView s := by
  unfold writeDone
  simp only
  split
  · exact view_withAc s _
  · rw [view_withRc, view_withAc]

theorem view_writeTimedOut (w : PageWrite) : incidentView (s.writeTimedOut w) = incidentView s := by
  unfold State.writeTimedOut
  split
  · exact view_unrecorded s _
  · rfl

theorem view_requestWrite (c : Nat) : incidentView (s.requestWrite c) = incidentView s := by
  unfold State.requestWrite
  split <;> rfl

theorem view_noteDamage (p : Nat) (ns : List Note) : incidentView (s.noteDamage p ns) = incidentView s := by
  obtain ⟨d, rs, h, -⟩ := State.noteDamage_frame s p ns
  rw [h]
  rfl

theorem view_scrubChoice : incidentView s.scrubChoice = incidentView s := by
  unfold State.scrubChoice
  split
  · split <;> rfl
  · rfl

theorem view_grantScrub (r : ReadRequest) : incidentView (grantScrub s r) = incidentView s := by
  unfold grantScrub
  simp only
  split
  · split <;> rfl
  · rfl

theorem view_scrubDone (x : Access) (r : ReadRequest) (wrong : WrongLanes) : incidentView (scrubDone s x r wrong) = incidentView s := by
  unfold scrubDone
  simp only
  split
  · exact view_withAc s _
  · rw [view_noteDamage, view_withAc, view_withAc]

theorem view_testAdvance (x : TestPosition) (faulted : Bool) : incidentView (s.testAdvance x faulted) = incidentView s := by
  rcases State.testAdvance_cases s x faulted with ⟨y, h, -⟩ | h <;> rw [h] <;> rfl

theorem view_testWritten (x : Access) : incidentView (testWritten s x) = incidentView s := by
  unfold testWritten
  simp only
  split
  · exact view_withAc s _
  · split
    · rw [view_withAc, view_withAc]
    · exact view_withAc s _

theorem view_testRead (x : Access) (wrong : WrongLanes) : incidentView (testRead s x wrong) = incidentView s := by
  unfold testRead
  simp only
  split
  · exact view_withAc s _
  · split
    · rw [view_testAdvance, view_withAc, view_withAc]
    · rw [view_withAc, view_withAc]

theorem view_archiveMapTaken (bs : List Byte) : incidentView (archiveMapTaken bs s).1 = incidentView s := by
  unfold archiveMapTaken
  split
  · rfl
  · split <;> rfl

theorem view_archiveTestTaken (u : Unit) : incidentView (archiveTestTaken u s).1 = incidentView s := by
  unfold archiveTestTaken
  split <;> rfl

theorem view_archiveRecordTaken (u : Unit) : incidentView (archiveRecordTaken u s).1 = incidentView s := by
  unfold archiveRecordTaken
  split <;> rfl

theorem view_spareLaneTaken (a : SpareLaneSetArgs) : incidentView (spareLaneTaken a s).1 = incidentView s := by
  unfold spareLaneTaken
  split
  · split
    · rfl
    · split <;> rfl
  · rfl

theorem view_archiveReadTaken (a : ArchiveReadArgs) : incidentView (archiveReadTaken a s).1 = incidentView s := by
  unfold archiveReadTaken
  split <;> rfl

end archive

/-! ## Feeds, Level Meter and Caption Checker -/

section feeds

variable (s : State)

theorem view_takePacket (f : Feed) (p : Packet) : incidentView (takePacket s f p) = incidentView s := by
  unfold takePacket
  split <;> rfl

theorem view_closeRecords (c : Nat) : incidentView (s.closeRecords c) = incidentView s := by
  unfold State.closeRecords
  split <;> rfl

theorem view_openTick : incidentView s.openTick = incidentView s := rfl

theorem view_feedSetTaken (a : FeedSetArgs) : incidentView (feedSetTaken a s).1 = incidentView s := by
  unfold feedSetTaken
  split <;> rfl

theorem view_meterTaken (b : Byte) : incidentView (meterTaken b s).1 = incidentView s := by
  unfold meterTaken
  split <;> rfl

end feeds

/-! ## The Segment Unit -/

section segments

variable (s : State)

theorem view_segmentReadTaken (a : SegmentReadArgs) : incidentView (segmentReadTaken a s).1 = incidentView s := by
  unfold segmentReadTaken
  split
  · rfl
  · split
    · rfl
    · split <;> rfl

theorem view_segmentListTaken (a : SegmentListArgs) : incidentView (segmentListTaken a s).1 = incidentView s := by
  unfold segmentListTaken
  simp only
  split
  · rfl
  · split <;> rfl

theorem view_limitsWriteTaken (a : LimitsWriteArgs) : incidentView (limitsWriteTaken a s).1 = incidentView s := by
  unfold limitsWriteTaken
  split <;> rfl

theorem view_limitsReadTaken (b : Byte) : incidentView (limitsReadTaken b s).1 = incidentView s := by
  unfold limitsReadTaken
  split <;> rfl

theorem view_judgeRecords (t : Nat) (es : List (Nat × Segment)) :
    incidentView (es.foldl (fun x e => x.judgeRecord t e) s) = incidentView s := by
  rw [Segments.judgeRecords_eq]
  rfl

/-- All of a state but the blocks that a settlement acts on. -/
def outsideSegments (s : State) : State := { s with fiu := Fiu.reset, lm := Lm.reset, sg := Sg.reset }

theorem outside_closeFound (found : Option (Nat × Segment)) (cause : AnnounceKind × Nat) :
    outsideSegments (s.closeFound found cause) = outsideSegments s := by
  cases found <;> rfl

theorem outside_closeItem (f : Feed) (cause : AnnounceKind × Nat) : outsideSegments (s.closeItem f cause) = outsideSegments s :=
  outside_closeFound s _ cause

theorem outside_closeLevel1 (f : Feed) (cause : AnnounceKind × Nat) : outsideSegments (s.closeLevel1 f cause) = outsideSegments s :=
  outside_closeFound s _ cause

theorem outside_closeSuspended (f : Feed) (cause : AnnounceKind × Nat) :
    outsideSegments (s.closeSuspended f cause) = outsideSegments s := outside_closeFound s _ cause

theorem outside_updateSegment (i : Nat) (g : Segment → Segment) : outsideSegments (s.updateSegment i g) = outsideSegments s := rfl

variable {s} {t : State} {f : Feed} {u : Nat}

theorem outside_openSegment {o : Opening} (h : s.openSegment f u o = some t) : outsideSegments t = outsideSegments s := by
  obtain ⟨i, table, -, rfl⟩ := State.openSegment_some h
  rfl

theorem outside_applyProgramme {e : Entry} {cur : Nat × Segment} {b : Bool} (h : applyProgramme s f u e cur = some (t, b)) :
    outsideSegments t = outsideSegments s := by
  unfold applyProgramme at h
  simp only at h
  split at h
  · cases h
    rfl
  · split at h
    · split at h
      · cases h
        rw [outside_updateSegment, outside_closeLevel1, outside_closeItem]
      · obtain ⟨x, hx, hxt⟩ := Option.map_eq_some_iff.mp h
        cases hxt
        rw [outside_openSegment hx, outside_closeSuspended, outside_closeLevel1, outside_closeItem]
    · obtain ⟨x, hx, hxt⟩ := Option.map_eq_some_iff.mp h
      cases hxt
      rw [outside_openSegment hx, outside_closeLevel1, outside_closeItem]

theorem outside_applyBreak {e : Entry} {cur : Nat × Segment} (h : applyBreak s f u e cur = some t) :
    outsideSegments t = outsideSegments s := by
  unfold applyBreak at h
  simp only at h
  rw [outside_openSegment h]
  split
  · rw [outside_updateSegment, outside_closeItem]
  · rw [outside_closeLevel1, outside_closeItem]

theorem outside_applyEnd {e : Entry} (h : applyEnd s f u e = some t) : outsideSegments t = outsideSegments s := by
  unfold applyEnd at h
  rw [outside_openSegment h, outside_closeSuspended, outside_closeLevel1, outside_closeItem]

theorem outside_applyLevel1 {e : Option Entry} {b : Bool} (h : applyLevel1 s f u e = some (t, b)) :
    outsideSegments t = outsideSegments s := by
  have mapped : ∀ {o : Option State}, (∀ x, o = some x → outsideSegments x = outsideSegments s) →
      o.map (fun x => (x, false)) = some (t, b) → outsideSegments t = outsideSegments s := by
    intro o ho hmap
    obtain ⟨x, hx, hxt⟩ := Option.map_eq_some_iff.mp hmap
    cases hxt
    exact ho _ hx
  unfold applyLevel1 at h
  split at h
  · exact mapped (fun x hx => outside_openSegment (Segments.applyFirst_eq s f u _ ▸ hx)) h
  · split at h
    · cases h
      rfl
    · split at h
      · exact outside_applyProgramme h
      · exact mapped (fun x hx => outside_applyBreak hx) h
      · exact mapped (fun x hx => outside_applyEnd hx) h
      · cases h
        rfl

theorem outside_applyLevel2 {e : Option Entry} (h : applyLevel2 s f u e = some t) : outsideSegments t = outsideSegments s := by
  unfold applyLevel2 at h
  split at h
  · cases h
    rfl
  · cases h
    rfl
  · split at h
    · unfold applyItem at h
      split at h
      · obtain ⟨x, hx, rfl⟩ := Option.map_eq_some_iff.mp h
        rw [outside_updateSegment, outside_openSegment hx, outside_closeItem]
      · cases h
        rfl
    · cases h
      exact outside_closeItem s f _
    · cases h
      rfl

/-- A settlement acts on the feeds' histories, the Level Meter and the Segment Unit alone (R9). -/
theorem outside_settleTick {ht : HandedTick} {rest : List HandedTick} (h : settleTick s f ht rest = some t) :
    outsideSegments t = outsideSegments s := by
  unfold settleTick at h
  split at h
  · cases h
  · rename_i s1 resumed h1
    split at h
    · cases h
    · rename_i s2 h2
      obtain ⟨l1, -, rfl⟩ := Option.map_eq_some_iff.mp h
      exact (outside_applyLevel2 h2).trans (outside_applyLevel1 h1)

theorem view_settlement (h : execSettlement f s = .next t) : incidentView t = incidentView s := by
  unfold execSettlement at h
  split at h
  · cases h
    rfl
  · split at h
    · split at h
      · rename_i hset
        cases h
        have hview := congrArg incidentView (outside_settleTick hset)
        exact hview
      · cases h
    · cases h
      rfl

end segments

/-! ## The Schedule Unit -/

section schedule

variable (s : State) (l : Link)

theorem view_lapseFirst : incidentView s.lapseFirst = incidentView s := by
  unfold State.lapseFirst
  split <;> rfl

theorem view_claimTaken (u : Unit) : incidentView (claimTaken l u s).1 = incidentView s := by
  unfold claimTaken
  simp only
  split <;> exact view_lapseFirst s

theorem view_yieldTaken (u : Unit) : incidentView (yieldTaken l u s).1 = incidentView s := by
  rcases Schedule.yieldTaken_cases s l u with h | h <;> rw [h] <;> exact view_lapseFirst s

theorem view_timeSyncTaken (b : BitVec 32) : incidentView (timeSyncTaken l b s).1 = incidentView s := by
  rcases Schedule.timeSyncTaken_cases s l b with h | ⟨a, h⟩ | ⟨c, o, h⟩ <;> rw [h] <;> exact view_lapseFirst s

theorem view_placeAnnouncement (x : Announcement) (r : Int) : incidentView (placeAnnouncement s x r).1 = incidentView s := by
  unfold placeAnnouncement
  simp only
  split
  · rfl
  · split
    · rfl
    · simp only
      split <;> rfl

theorem view_announceTaken (a : AnnounceArgs) : incidentView (announceTaken l a s).1 = incidentView s := by
  unfold announceTaken
  simp only
  split
  · exact view_lapseFirst s
  · split
    · exact view_lapseFirst s
    · exact view_lapseFirst s
    · rw [view_placeAnnouncement, view_lapseFirst]

theorem view_handOverAt (c : Nat) : incidentView (s.handOverAt c) = incidentView s := by
  unfold State.handOverAt
  split <;> rfl

theorem view_withdrawTaken (a : WithdrawArgs) : incidentView (withdrawTaken l a s).1 = incidentView s := by
  rcases Schedule.withdrawTaken_cases s l a with h | ⟨mask, n, k, h⟩ <;> rw [h] <;> exact view_lapseFirst s

theorem view_measureRestartTaken (u : Unit) : incidentView (measureRestartTaken u s).1 = incidentView s := by
  unfold measureRestartTaken
  simp only
  split <;> exact view_lapseFirst s

end schedule

/-! ## The Incident Unit and the Retention Unit -/

section incidents

variable (s : State)

theorem view_policyWriteTaken (a : PolicyWriteArgs) : incidentView (policyWriteTaken a s).1 = incidentView s := by
  unfold policyWriteTaken
  split <;> rfl

theorem view_policyReadTaken (b : Byte) : incidentView (policyReadTaken b s).1 = incidentView s := by
  unfold policyReadTaken
  split <;> rfl

theorem view_holdListTaken (b : Byte) : incidentView (holdListTaken b s).1 = incidentView s := by
  unfold holdListTaken
  split <;> rfl

end incidents

/-! ## The Export Unit -/

section exports

variable (s : State)

theorem view_lookup (j : Job) : incidentView (s.lookup j) = incidentView s := by
  obtain ⟨x, r, h⟩ := State.lookup_frame s j
  rw [h]
  rfl

theorem view_activate : incidentView s.activate = incidentView s := by
  obtain ⟨x, r, h⟩ := State.activate_frame s
  rw [h]
  rfl

theorem keeps_endJob (j : Job) (st : EndStatus) : KeepsIncidents s (s.endJob j st) :=
  keeps_releasePin (i := j.pin) (n := j.number) rfl rfl

theorem keeps_endActive (j : Job) (st : EndStatus) : KeepsIncidents s (s.endActive j st) := by
  obtain ⟨x, r, h⟩ := State.endActive_frame s j st
  rw [h]
  exact keeps_releasePin (i := j.pin) (n := j.number) rfl rfl

theorem keeps_stallFirst : KeepsIncidents s s.stallFirst := by
  rcases State.stallFirst_cases s with h | ⟨j, rest, st, -, h⟩ <;> rw [h]
  · exact .refl s
  · exact keeps_endActive s j st

theorem keeps_recordDone (j : Job) (b : Buffered) (rest : List (Feed × Buffered)) : KeepsIncidents s (recordDone s j b rest) := by
  unfold recordDone
  simp only
  split
  · exact .after_view (keeps_endActive _ _ _) rfl
  · split
    · exact .of_view rfl
    · split
      · exact .after_view (keeps_endActive _ _ _) rfl
      · exact .of_view (view_lookup _ _)

theorem keeps_strobe (rest : List (BitVec 16)) : KeepsIncidents s (strobe s rest) := by
  unfold strobe
  simp only
  split
  · exact .of_view rfl
  · split
    · exact .after_view (keeps_recordDone _ _ _ _) rfl
    · exact .of_view rfl

theorem keeps_deliver (r : ReadRequest) (rs : List (Nat × WordRead)) : KeepsIncidents s (s.deliver r rs) := by
  unfold State.deliver
  split
  · exact .refl s
  · split
    · exact keeps_endActive s _ _
    · exact .of_view rfl

theorem view_grantExport (r : ReadRequest) : incidentView (grantExport s r) = incidentView s := by
  unfold grantExport
  simp only
  split <;> split <;> rfl

theorem keeps_exportReadDone (x : Access) (r : ReadRequest) (wrong : WrongLanes) : KeepsIncidents s (exportReadDone s x r wrong) := by
  unfold exportReadDone
  simp only
  split
  · exact .of_view (view_withAc s _)
  · exact .after_view (keeps_deliver _ _ _) (by rw [view_noteDamage, view_withAc, view_withAc])

theorem view_queueJob (j : Job) : incidentView (s.queueJob j) = incidentView s := by
  unfold State.queueJob
  simp only
  split
  · exact view_activate _
  · rfl

theorem keeps_abortActive (j : Job) : KeepsIncidents s (abortActive s j) := by
  unfold abortActive
  split
  · exact .refl s
  · split
    · exact .refl s
    · exact .of_view rfl
    · split
      · exact .after_view (keeps_endActive _ _ _) rfl
      · exact .of_view rfl
    · exact keeps_endActive s _ _
    · exact keeps_endActive s _ _

theorem keeps_exportAbortTaken (b : BitVec 32) : KeepsIncidents s (exportAbortTaken b s).1 := by
  refine (keeps_stallFirst s).trans ?_
  unfold exportAbortTaken
  simp only
  split
  · exact .refl _
  · split
    · exact keeps_abortActive _ _
    · split
      · exact keeps_endJob _ _ _
      · exact .refl _

theorem view_notePartDamage (x : Access) (ns : List Note) : incidentView (s.notePartDamage x ns) = incidentView s := by
  unfold State.notePartDamage
  split
  · exact view_noteDamage s _ _
  · rfl

theorem view_timeoutGroup (g : Group) : incidentView (s.timeoutGroup g) = incidentView s := by
  unfold State.timeoutGroup
  split <;> rfl

theorem keeps_tellTimeout (x : Access) (rs : List (Nat × WordRead)) : KeepsIncidents s (s.tellTimeout x rs) := by
  unfold State.tellTimeout
  split
  · exact .of_view (view_writeTimedOut s _)
  · exact keeps_deliver s _ _
  · exact .refl s
  · split
    · exact .of_view (view_testAdvance s _ _)
    · exact .refl s
  · split
    · exact .of_view (view_testAdvance s _ _)
    · exact .refl s

theorem keeps_timeoutAccess (x : Access) (n : Nat) (wrong : WrongLanes) : KeepsIncidents s (timeoutAccess s x n wrong) := by
  unfold timeoutAccess
  simp only
  split
  · exact .of_view (view_withAc s _)
  · exact .after_view (keeps_tellTimeout _ _ _) (by rw [view_timeoutGroup, view_notePartDamage, view_withAc, view_withAc])

theorem keeps_abortAll (js : List Job) : KeepsIncidents s (s.abortAll js) := by
  unfold State.abortAll
  induction js generalizing s with
  | nil => exact .refl s
  | cons j js ih => exact (keeps_endJob s j .aborted).trans (ih _)

theorem keeps_resetExports : KeepsIncidents s s.resetExports := by
  unfold State.resetExports
  split
  · exact .refl s
  · split
    · exact .after_view (keeps_abortAll _ _) rfl
    · exact keeps_abortAll s _

theorem keeps_statusTaken (l : Link) (u : Unit) : KeepsIncidents s (statusTaken l u s).1 :=
  .after_view (keeps_stallFirst s.lapseFirst) (view_lapseFirst s)

theorem keeps_closeTick (xbsy : Bool) : KeepsIncidents s (closeTick s xbsy) := by
  refine .after_view ((keeps_stallFirst s.lapseFirst).then_view ?_) (view_lapseFirst s)
  unfold closeTick
  simp only
  rw [view_withXu, view_scrubChoice, view_withSu, view_handOverAt, view_openTick, view_requestWrite, view_closeRecords]
  rfl

end exports

/-! ## The Link Interface -/

section links

variable (s : State) (l : Link)

theorem view_attentionClearTaken (b : Byte) : incidentView (attentionClearTaken l b s).1 = incidentView s := rfl

theorem view_attentionSetTaken (a : AttentionSetArgs) : incidentView (attentionSetTaken l a s).1 = incidentView s := by
  unfold attentionSetTaken
  split <;> rfl

end links

end Sys2Proof.Proofs.Incidents
end

section

namespace Sys2Proof.Proofs.Incidents

open Sys2Proof Sys2Proof.Machine

/-!
# Commands that leave the incidents alone

All but nine commands leave log, cursors and incident holds as they are.
-/

/-- The commands that can act on the Incident Log, its cursors or the Hold Table, but for the pins of jobs that end. -/
def actsOnIncidents : Instr → Bool
  | .powerOn _ | .resetPin _ | .incidentReport _ | .incidentFetch _ _ | .incidentReview _ _ | .holdPlace _ _ | .holdRelease _ _
  | .exportStart _ _ | .archiveReset _ _ => true
  | _ => false

theorem keeps_of_next {s t u : State} (h : Host.Outcome.next (φ := Fault) (ρ := Refusal) u = .next t) (hu : KeepsIncidents s u) :
    KeepsIncidents s t := Host.Outcome.next.inj h ▸ hu

theorem exec_keepsIncidents {c : Instr} {s t : State} (hc : actsOnIncidents c = false) (h : exec c s = .next t) :
    KeepsIncidents s t := by
  cases c with
  | powerOn _ | resetPin _ | incidentReport _ | incidentFetch _ _ | incidentReview _ _ | holdPlace _ _ | holdRelease _ _
  | exportStart _ _ | archiveReset _ _ => cases hc
  | wordClockPeriod frames =>
    obtain rfl := Host.Outcome.next.inj h
    split <;> exact .of_view rfl
  | laneLock f =>
    obtain rfl := Host.Outcome.next.inj h
    split <;> exact .of_view rfl
  | captionPacket p =>
    obtain rfl := Host.Outcome.next.inj h
    split
    · exact .of_view (view_takePacket s _ p)
    · exact .refl s
  | tickClose xbsy =>
    obtain rfl := Host.Outcome.next.inj h
    split
    · exact keeps_closeTick s xbsy
    · exact .refl s
  | captionStale f =>
    obtain rfl := Host.Outcome.next.inj h
    split
    · split <;> exact .of_view rfl
    · exact .refl s
  | carriageAbsent f =>
    obtain rfl := Host.Outcome.next.inj h
    split <;> exact .of_view rfl
  | heartbeatLapse =>
    obtain rfl := Host.Outcome.next.inj h
    exact .of_view (view_lapseFirst s)
  | settlement f => exact .of_view (view_settlement h)
  | settledTickNoticeLm f =>
    obtain rfl := Host.Outcome.next.inj h
    split <;> exact .of_view rfl
  | settledTickNoticeCc f =>
    obtain rfl := Host.Outcome.next.inj h
    split
    · exact .refl s
    · simp only
      split <;> exact .of_view rfl
  | verdict f =>
    obtain rfl := Host.Outcome.next.inj h
    split
    · exact .of_view (view_judgeRecords s _ _)
    · exact .refl s
  | recordWriteGrant =>
    obtain rfl := Host.Outcome.next.inj h
    split
    · exact .of_view (by rw [view_grantWrite, view_withRc])
    · exact .refl s
  | recordWriteCompletion =>
    obtain rfl := Host.Outcome.next.inj h
    split
    · split
      · exact .of_view (view_writeDone s _ _ _)
      · exact .refl s
    · exact .refl s
  | accessTimeout words wrong =>
    obtain rfl := Host.Outcome.next.inj h
    split
    · exact keeps_timeoutAccess s _ _ _
    · exact .refl s
  | scrubReadGrant =>
    obtain rfl := Host.Outcome.next.inj h
    split
    · exact .of_view (view_grantScrub s _)
    · exact .refl s
  | scrubReadCompletion wrong =>
    obtain rfl := Host.Outcome.next.inj h
    split
    · split
      · exact .of_view (view_scrubDone s _ _ _)
      · exact .refl s
    · exact .refl s
  | exportReadGrant =>
    obtain rfl := Host.Outcome.next.inj h
    split
    · exact .of_view (view_grantExport s _)
    · exact .refl s
  | exportReadCompletion wrong =>
    obtain rfl := Host.Outcome.next.inj h
    split
    · split
      · exact keeps_exportReadDone s _ _ _
      · exact .refl s
    · exact .refl s
  | testAccessGrant =>
    obtain rfl := Host.Outcome.next.inj h
    split
    · split <;> exact .of_view rfl
    · exact .refl s
  | testAccessCompletion wrong =>
    obtain rfl := Host.Outcome.next.inj h
    split
    · split
      · exact .of_view (view_testWritten s _)
      · exact .of_view (view_testRead s _ _)
      · exact .refl s
    · exact .refl s
  | exportStrobe =>
    obtain rfl := Host.Outcome.next.inj h
    split
    · exact .refl s
    · split
      · exact .refl s
      · exact keeps_strobe s _
  | exportStall =>
    obtain rfl := Host.Outcome.next.inj h
    exact keeps_stallFirst s
  | frameError l bytes =>
    obtain rfl := Host.Outcome.next.inj h
    split
    · exact keeps_received (.of_view rfl)
    · exact .refl s
  | unknownRequest l kind payload =>
    obtain rfl := Host.Outcome.next.inj h
    split
    · exact keeps_received (.of_view rfl)
    · exact .refl s
  | replyArrival n =>
    obtain rfl := Host.Outcome.next.inj h
    split <;> exact .of_view rfl
  | fetch l payload clocked =>
    obtain rfl := Host.Outcome.next.inj h
    split
    · exact keeps_received (.of_view rfl)
    · exact .refl s
  | status l p => exact keeps_of_next h (keeps_passRequest fun a x => keeps_statusTaken x l a)
  | meter l p => exact keeps_of_next h (keeps_passRequest_of_view fun a x => view_meterTaken x a)
  | segmentRead l p => exact keeps_of_next h (keeps_passRequest_of_view fun a x => view_segmentReadTaken x a)
  | segmentList l p => exact keeps_of_next h (keeps_passRequest_of_view fun a x => view_segmentListTaken x a)
  | holdList l p => exact keeps_of_next h (keeps_passRequest_of_view fun a x => view_holdListTaken x a)
  | limitsRead l p => exact keeps_of_next h (keeps_passRequest_of_view fun a x => view_limitsReadTaken x a)
  | policyRead l p => exact keeps_of_next h (keeps_passRequest_of_view fun a x => view_policyReadTaken x a)
  | archiveRead l p => exact keeps_of_next h (keeps_passRequest_of_view fun a x => view_archiveReadTaken x a)
  | captureRead l p => exact keeps_of_next h (keeps_passRequest_of_view fun _ _ => rfl)
  | attentionSet l p => exact keeps_of_next h (keeps_answerRequest fun a x => view_attentionSetTaken x l a)
  | attentionClear l p => exact keeps_of_next h (keeps_answerRequest fun a x => view_attentionClearTaken x l a)
  | scheduleClaim l p => exact keeps_of_next h (keeps_passRequest_of_view fun a x => view_claimTaken x l a)
  | scheduleYield l p => exact keeps_of_next h (keeps_passRequest_of_view fun a x => view_yieldTaken x l a)
  | timeSync l p => exact keeps_of_next h (keeps_passRequest_of_view fun a x => view_timeSyncTaken x l a)
  | announce l p => exact keeps_of_next h (keeps_passRequest_of_view fun a x => view_announceTaken x l a)
  | withdraw l p => exact keeps_of_next h (keeps_passRequest_of_view fun a x => view_withdrawTaken x l a)
  | heartbeatSet l p => exact keeps_of_next h (keeps_passRequest_of_view fun _ x => view_lapseFirst x)
  | limitsWrite l p => exact keeps_of_next h (keeps_passRequest_of_view fun a x => view_limitsWriteTaken x a)
  | policyWrite l p => exact keeps_of_next h (keeps_passRequest_of_view fun a x => view_policyWriteTaken x a)
  | feedSet l p => exact keeps_of_next h (keeps_passRequest_of_view fun a x => view_feedSetTaken x a)
  | exportAbort l p => exact keeps_of_next h (keeps_passRequest fun a x => keeps_exportAbortTaken x a)
  | captureClear l p => exact keeps_of_next h (keeps_passRequest_of_view fun _ _ => rfl)
  | measureRestart l p => exact keeps_of_next h (keeps_passRequest_of_view fun a x => view_measureRestartTaken x a)
  | archiveMap l groups => exact keeps_of_next h (keeps_passRequest_of_view fun a x => view_archiveMapTaken x a)
  | archiveTest l p => exact keeps_of_next h (keeps_passRequest_of_view fun a x => view_archiveTestTaken x a)
  | archiveRecord l p => exact keeps_of_next h (keeps_passRequest_of_view fun a x => view_archiveRecordTaken x a)
  | spareLaneSet l p => exact keeps_of_next h (keeps_passRequest_of_view fun a x => view_spareLaneTaken x a)

end Sys2Proof.Proofs.Incidents
end

section

namespace Sys2Proof.Proofs.Incidents

open Sys2Proof Sys2Proof.Machine

/-!
# The incidents are kept whole (R107, R112, R114)

The pairing of records and incident holds is one equivalence: entry `i` of the Hold Table is the hold of incident `n` exactly when record `n`
names entry `i`. With it each change of the log and of the table is one rewriting of both sides.
-/

/-- Record `n` of a log names entry `i` of the Hold Table. -/
def recordNames (log : List Incident) (i n : Nat) : Prop := ∃ x ∈ log, x.serial = n ∧ x.holdIndex = some i

theorem incidentHolds_iff {holds : List (Nat × Hold)} {i n : Nat} :
    incidentHolds holds i n ↔ ∃ h, tableGet holds i = some h ∧ h.owner = .incident n := Option.map_eq_some_iff

theorem holdsPaired_iff {s : State} : holdsPaired s ↔ ∀ i n, incidentHolds s.ru.holds i n ↔ recordNames s.iu.log i n := by
  simp only [incidentHolds_iff]
  constructor
  · rintro ⟨hrec, hhold⟩ i n
    refine ⟨fun ⟨h, hget, ho⟩ => hhold i h n hget ho, ?_⟩
    rintro ⟨x, hx, rfl, hi⟩
    exact hrec x hx i hi
  · intro hp
    exact ⟨fun x hx i hi => (hp i x.serial).mpr ⟨x, hx, rfl, hi⟩, fun i h n hget ho => (hp i n).mp ⟨h, hget, ho⟩⟩

/-! ## The log and the Hold Table -/

section parts

variable {s t : State}

/-- Serials tell the records of an ordered log apart (R107). -/
theorem eq_of_serial {log : List Incident} (hlog : log.Pairwise (fun a b => a.serial < b.serial)) {x y : Incident} (hx : x ∈ log)
    (hy : y ∈ log) (h : x.serial = y.serial) : x = y := by
  have hnodup : (log.map (·.serial)).Nodup := List.pairwise_map.mpr (hlog.imp Nat.ne_of_lt)
  exact List.inj_on_of_nodup_map hnodup hx hy h

theorem holdsInOrder_of_sublist (hs : holdsInOrder s) (hsub : t.ru.holds.Sublist s.ru.holds) (hc : t.ru.counter = s.ru.counter) :
    holdsInOrder t :=
  ⟨hs.1.sublist hsub, fun e he => hc ▸ hs.2 e (hsub.subset he)⟩

/-- A placed hold takes a free entry and the next number (R122, R127). -/
theorem holdsInOrder_take {o : Owner} {a b reason i : Nat} {h : Hold} {c : Bool} (hs : holdsInOrder s)
    (hp : judgePlacement s o a b reason = .placed i h c) (hru : t.ru = s.ru.take (.placed i h c)) : holdsInOrder t := by
  obtain ⟨-, -, -, -, -, hi, -, -, rfl, -⟩ := judgePlacement_placed hp
  unfold holdsInOrder
  rw [hru]
  refine ⟨tableSorted_put hs.1 _ _, fun e he => ?_⟩
  rcases mem_tablePut he with rfl | he
  · exact ⟨hi, Nat.lt_succ_self _⟩
  · obtain ⟨hlt, hn⟩ := hs.2 e he
    exact ⟨hlt, Nat.lt_succ_of_lt hn⟩

/-- What incidents hold after a placement at a free entry. -/
theorem incidentHolds_put {holds : List (Nat × Hold)} {i : Nat} {h : Hold} (hfree : tableGet holds i = none) (j n : Nat) :
    incidentHolds (tablePut holds i h) j n ↔ incidentHolds holds j n ∨ (j = i ∧ h.owner = .incident n) := by
  unfold incidentHolds
  rw [tableGet_put]
  split
  · subst_vars
    simp [hfree]
  · simp [*]

/-- A change of records in place that keeps their serials keeps the log's order (R107). -/
theorem logInOrder_map {g : Incident → Incident} (hs : logInOrder s) (hg : ∀ x ∈ s.iu.log, (g x).serial = x.serial)
    (hlog : t.iu.log = s.iu.log.map g) (hn : t.iu.nextSerial = s.iu.nextSerial) (hc : t.iu.cursors = s.iu.cursors) : logInOrder t := by
  obtain ⟨hpair, hlen, hlt, hcur⟩ := hs
  refine ⟨?_, by rwa [hlog, List.length_map], ?_, by rwa [hn, hc]⟩
  · rw [hlog, List.pairwise_map]
    exact hpair.imp_of_mem fun ha hb hab => by rwa [hg _ ha, hg _ hb]
  · intro x hx
    rw [hlog] at hx
    obtain ⟨y, hy, rfl⟩ := List.mem_map.mp hx
    rw [hg y hy, hn]
    exact hlt y hy

/-- A new record takes the next serial in a log with room (R107). -/
theorem logInOrder_append {x : Incident} (hs : logInOrder s) (hroom : s.iu.log.length < 256) (hx : x.serial = s.iu.nextSerial)
    (hlog : t.iu.log = s.iu.log ++ [x]) (hn : t.iu.nextSerial = s.iu.nextSerial + 1) (hc : t.iu.cursors = s.iu.cursors) :
    logInOrder t := by
  obtain ⟨hpair, hlen, hlt, hcur⟩ := hs
  refine ⟨?_, ?_, ?_, ?_⟩
  · rw [hlog, List.pairwise_append]
    refine ⟨hpair, List.pairwise_singleton _ _, fun a ha b hb => ?_⟩
    obtain rfl := List.mem_singleton.mp hb
    exact hx ▸ hlt a ha
  · rw [hlog, List.length_append, List.length_singleton]
    omega
  · rw [hlog, hn]
    intro y hy
    rcases List.mem_append.mp hy with hy | hy
    · exact Nat.lt_succ_of_lt (hlt y hy)
    · obtain rfl := List.mem_singleton.mp hy
      omega
  · rw [hc, hn]
    exact fun l => ⟨(hcur l).1, Nat.le_succ_of_le (hcur l).2⟩

theorem logInOrder_filter {p : Incident → Bool} (hs : logInOrder s) (hlog : t.iu.log = s.iu.log.filter p)
    (hn : t.iu.nextSerial = s.iu.nextSerial) (hc : t.iu.cursors = s.iu.cursors) : logInOrder t := by
  obtain ⟨hpair, hlen, hlt, hcur⟩ := hs
  unfold logInOrder
  rw [hlog, hn, hc]
  exact ⟨hpair.filter _, (List.length_filter_le _ _).trans hlen, fun x hx => hlt x (List.mem_of_mem_filter hx), hcur⟩

end parts

/-! ## The operations of the Incident Unit and the Retention Unit -/

section operations

variable {s t : State}

theorem whole_of_keeps (h : KeepsIncidents s t) (hs : incidentsKeptWhole s) : incidentsKeptWhole t := by
  obtain ⟨hlog, hholds, hpaired⟩ := hs
  refine ⟨?_, holdsInOrder_of_sublist hholds h.holds h.counter, ?_⟩
  · unfold logInOrder
    rwa [h.log, h.nextSerial, h.cursors]
  · rw [holdsPaired_iff] at hpaired ⊢
    intro i n
    rw [h.owned, h.log]
    exact hpaired i n

/-- After reset the log and the Hold Table are empty (R119, R135). -/
theorem whole_afterReset (pending : List Instr) (epoch : Nat) (roles : Tri Role) :
    incidentsKeptWhole (State.afterReset pending epoch roles) := by
  have hcursors : ∀ l, 1 ≤ Iu.reset.cursors.get l ∧ Iu.reset.cursors.get l ≤ Iu.reset.nextSerial := by decide
  refine ⟨⟨List.Pairwise.nil, Nat.zero_le _, fun x hx => absurd hx List.not_mem_nil, hcursors⟩,
    ⟨List.Pairwise.nil, fun e he => absurd he List.not_mem_nil⟩, fun x hx => absurd hx List.not_mem_nil, fun i h n hi => ?_⟩
  cases hi

/-- The discard of a record takes its hold along (R112, R130). -/
theorem whole_discard {r : Incident} (hs : incidentsKeptWhole s) (hr : r ∈ s.iu.log) :
    incidentsKeptWhole { s with iu := s.iu.afterDiscard r, ru := s.ru.afterDiscard r } := by
  obtain ⟨hlog, hholds, hpaired⟩ := hs
  rw [holdsPaired_iff] at hpaired
  have hnames : ∀ i n, recordNames (s.iu.afterDiscard r).log i n ↔ recordNames s.iu.log i n ∧ n ≠ r.serial := by
    intro i n
    simp only [recordNames, Iu.afterDiscard, List.mem_filter, decide_eq_true_eq]
    constructor
    · rintro ⟨x, ⟨hx, hne⟩, rfl, hi⟩
      exact ⟨⟨x, hx, rfl, hi⟩, hne⟩
    · rintro ⟨⟨x, hx, rfl, hi⟩, hne⟩
      exact ⟨x, ⟨hx, hne⟩, rfl, hi⟩
  have hown : ∀ i, recordNames s.iu.log i r.serial → r.holdIndex = some i := by
    rintro i ⟨x, hx, hserial, hi⟩
    rwa [← eq_of_serial hlog.1 hx hr hserial]
  refine ⟨logInOrder_filter hlog rfl rfl rfl, ?_, holdsPaired_iff.mpr fun i n => (Iff.trans ?_ (hnames i n).symm)⟩
  · unfold Ru.afterDiscard
    split
    · exact holdsInOrder_of_sublist hholds (releaseOwned_sublist _ _ _) (Ru.releaseOwned_rest _ _ _).1
    · exact hholds
  · unfold Ru.afterDiscard
    rw [← hpaired i n]
    split
    · rename_i k hk
      rw [incidentHolds_releaseOwned]
      refine and_congr_right fun hi => ⟨fun hne hn => hne ⟨?_, by rw [hn]⟩, fun hne ⟨_, ho⟩ => ?_⟩
      · have := hown i (hn ▸ (hpaired i n).mp hi)
        rw [hk] at this
        exact (Option.some.inj this).symm
      · exact hne (Owner.incident.inj ho).symm
    · rename_i hk
      refine ⟨fun hi => ⟨hi, fun hn => ?_⟩, And.left⟩
      rw [hown i (hn ▸ (hpaired i n).mp hi)] at hk
      cases hk

theorem makeRoom_of_room (h : s.iu.log.length < 256) : s.makeRoom = s := if_pos h

/-- A full log loses the record of `discardChoice`, and its hold (R112). -/
theorem makeRoom_of_full (h : s.iu.log.length = 256) :
    ∃ r ∈ s.iu.log, discardChoice s.iu.log = some r ∧ s.makeRoom = { s with iu := s.iu.afterDiscard r, ru := s.ru.afterDiscard r } := by
  obtain ⟨r, hr⟩ : ∃ r, discardChoice s.iu.log = some r := by
    unfold discardChoice
    split
    · exact ⟨_, rfl⟩
    · exact ⟨_, List.head?_eq_some_head (List.ne_nil_of_length_pos (by omega))⟩
  have hfull : s.makeRoom = { s with iu := s.iu.afterDiscard r, ru := s.ru.afterDiscard r } := by
    have : ¬ s.iu.log.length < Config.logSize := by
      rw [h]
      decide
    simp only [State.makeRoom, if_neg this, hr]
    rfl
  refine ⟨r, ?_, hr, hfull⟩
  unfold discardChoice at hr
  split at hr
  · cases hr
    exact List.mem_of_find?_eq_some (by assumption)
  · exact List.mem_of_mem_head? hr

theorem whole_makeRoom (hs : incidentsKeptWhole s) : incidentsKeptWhole s.makeRoom := by
  rcases State.makeRoom_cases s with h | ⟨r, hr, -, -, h⟩ <;> rw [h]
  · exact hs
  · exact whole_discard hs hr

/-- A log of at most 256 records has room for one after the discard (R112). -/
theorem makeRoom_hasRoom (hlen : s.iu.log.length ≤ 256) : s.makeRoom.iu.log.length < 256 := by
  rcases Nat.lt_or_eq_of_le hlen with hlt | hfull
  · rwa [makeRoom_of_room hlt]
  · obtain ⟨r, hr, -, h⟩ := makeRoom_of_full hfull
    rw [h]
    exact Nat.lt_of_lt_of_le (List.length_filter_lt_length_iff_exists.mpr ⟨r, hr, by simp⟩) hlen

/-- A record without a hold joins the log (R107). -/
theorem whole_append {x : Incident} (hs : incidentsKeptWhole s) (hroom : s.iu.log.length < 256) (hx : x.serial = s.iu.nextSerial)
    (hi : x.holdIndex = none) : incidentsKeptWhole (s.appendIncident x) := by
  obtain ⟨hlog, hholds, hpaired⟩ := hs
  refine ⟨logInOrder_append hlog hroom hx rfl rfl rfl, hholds, holdsPaired_iff.mpr fun i n => (holdsPaired_iff.mp hpaired i n).trans ?_⟩
  simp [recordNames, State.appendIncident_eq, hi, or_and_right, exists_or]

/-- A record joins the log with the hold that was placed for it (R107 to R109). -/
theorem whole_append_held {x : Incident} {a b reason i : Nat} {h : Hold} {c : Bool} (hs : incidentsKeptWhole s)
    (hroom : s.iu.log.length < 256) (hx : x.serial = s.iu.nextSerial) (hi : x.holdIndex = some i)
    (hp : judgePlacement s (.incident s.iu.nextSerial) a b reason = .placed i h c) :
    incidentsKeptWhole ((s.withRu (s.ru.take (.placed i h c))).appendIncident x) := by
  obtain ⟨hlog, hholds, hpaired⟩ := hs
  obtain ⟨-, -, -, -, -, -, hfree, -, hh, -⟩ := judgePlacement_placed hp
  refine ⟨logInOrder_append hlog hroom hx rfl rfl rfl, holdsInOrder_take hholds hp rfl, holdsPaired_iff.mpr fun j n => ?_⟩
  refine (incidentHolds_put hfree j n).trans ((or_congr_left (holdsPaired_iff.mp hpaired j n)).trans ?_)
  simp [recordNames, State.appendIncident_eq, hi, hx, hh, or_and_right, exists_or, and_comm, eq_comm (a := i)]

theorem whole_raiseIncident (p : PolicyEntry) (r : Report) (hs : incidentsKeptWhole s) : incidentsKeptWhole (s.raiseIncident p r) := by
  have hroom := makeRoom_hasRoom hs.1.2.1
  have hw := whole_makeRoom hs
  rcases State.raiseIncident_cases s p r with ⟨x, hx, -, hi, h⟩ | ⟨x, i, hold, c, hx, -, hi, hp, h⟩ <;> rw [h]
  · exact whole_append hw hroom hx hi
  · exact whole_append_held hw hroom hx hi hp

theorem whole_handleReport (r : Report) (hs : incidentsKeptWhole s) : incidentsKeptWhole (s.handleReport r) := by
  unfold State.handleReport
  simp only
  split
  · exact hs
  · exact whole_raiseIncident _ r hs

/-- A hold placed for a link or a job takes a free entry (R127, R179). -/
theorem whole_take {o : Owner} {a b reason i : Nat} {h : Hold} {c : Bool} (hs : incidentsKeptWhole s) (ho : ∀ n, o ≠ .incident n)
    (hp : judgePlacement s o a b reason = .placed i h c) : incidentsKeptWhole (s.withRu (s.ru.take (.placed i h c))) := by
  obtain ⟨hlog, hholds, hpaired⟩ := hs
  obtain ⟨-, -, -, -, -, -, hfree, -, hh, -⟩ := judgePlacement_placed hp
  refine ⟨hlog, holdsInOrder_take hholds hp rfl, holdsPaired_iff.mpr fun j n => ?_⟩
  refine (incidentHolds_put hfree j n).trans (Iff.trans ?_ (holdsPaired_iff.mp hpaired j n))
  simp [hh, ho n]

/-- Records that change in place with no more than their hold index and marks, beside a Hold Table that follows. -/
theorem whole_update {g : Incident → Incident} (hs : incidentsKeptWhole s) (hg : ∀ x ∈ s.iu.log, (g x).serial = x.serial)
    (hlog : t.iu.log = s.iu.log.map g) (hn : t.iu.nextSerial = s.iu.nextSerial) (hc : t.iu.cursors = s.iu.cursors)
    (hsub : t.ru.holds.Sublist s.ru.holds) (hcount : t.ru.counter = s.ru.counter)
    (hown : ∀ i n, incidentHolds t.ru.holds i n ↔ ∃ x ∈ s.iu.log, x.serial = n ∧ (g x).holdIndex = some i) : incidentsKeptWhole t := by
  refine ⟨logInOrder_map hs.1 hg hlog hn hc, holdsInOrder_of_sublist hs.2.1 hsub hcount, holdsPaired_iff.mpr fun i n => (hown i n).trans ?_⟩
  rw [hlog]
  simp only [recordNames, List.mem_map, exists_exists_and_eq_and]
  exact exists_congr fun x => and_congr_right fun hx => by rw [hg x hx]

/-- A change of one record alone, with the hold it names. -/
theorem exists_updated {g : Incident → Incident} {x : Incident} {log : List Incident}
    (hlog : log.Pairwise (fun a b => a.serial < b.serial)) (hx : x ∈ log) {i n : Nat} :
    (∃ y ∈ log, y.serial = n ∧ (if y.serial = x.serial then g y else y).holdIndex = some i) ↔
      (n = x.serial ∧ (g x).holdIndex = some i) ∨ (n ≠ x.serial ∧ recordNames log i n) := by
  constructor
  · rintro ⟨y, hy, rfl, hi⟩
    split at hi
    · rename_i he
      rw [eq_of_serial hlog hy hx he] at hi ⊢
      exact .inl ⟨rfl, hi⟩
    · exact .inr ⟨by assumption, y, hy, rfl, hi⟩
  · rintro (⟨rfl, hi⟩ | ⟨hn, y, hy, rfl, hi⟩)
    · exact ⟨x, hx, rfl, by rwa [if_pos rfl]⟩
    · exact ⟨y, hy, rfl, by rwa [if_neg hn]⟩

/-- One record changes, and the Hold Table with it. -/
theorem whole_changeRecord {x : Incident} {g : Incident → Incident} {ru : Ru} (hs : incidentsKeptWhole s) (hx : x ∈ s.iu.log)
    (hg : (g x).serial = x.serial) (hsub : ru.holds.Sublist s.ru.holds) (hcount : ru.counter = s.ru.counter)
    (hown : ∀ i n, incidentHolds ru.holds i n ↔
      (n = x.serial ∧ (g x).holdIndex = some i) ∨ (n ≠ x.serial ∧ recordNames s.iu.log i n)) :
    incidentsKeptWhole ((s.withIu (s.iu.updateRecord x.serial g)).withRu ru) := by
  have hlog := hs.1.1
  refine whole_update (g := fun y => if y.serial = x.serial then g y else y) hs (fun y hy => ?_) rfl rfl rfl hsub hcount
    fun i n => (hown i n).trans (exists_updated hlog hx).symm
  split
  · rename_i he
    rw [eq_of_serial hlog hy hx he, hg]
  · rfl

/-- A record that keeps its hold index may change otherwise, but for its serial. -/
theorem whole_updateRecord {x : Incident} {g : Incident → Incident} (hs : incidentsKeptWhole s) (hx : x ∈ s.iu.log)
    (hg : (g x).serial = x.serial) (hi : (g x).holdIndex = x.holdIndex) :
    incidentsKeptWhole (s.withIu (s.iu.updateRecord x.serial g)) := by
  refine whole_changeRecord (ru := s.ru) hs hx hg (.refl _) rfl fun i n => (holdsPaired_iff.mp hs.2.2 i n).trans ?_
  rw [hi]
  constructor
  · intro h
    by_cases hn : n = x.serial
    · obtain ⟨y, hy, hserial, hyi⟩ := h
      exact .inl ⟨hn, by rwa [← eq_of_serial hs.1.1 hy hx (hserial.trans hn)]⟩
    · exact .inr ⟨hn, h⟩
  · rintro (⟨rfl, h⟩ | ⟨-, h⟩)
    · exact ⟨x, hx, rfl, h⟩
    · exact h

/-- A record gives up its hold, which is released (R113, R117). -/
theorem whole_giveUp {x : Incident} {g : Incident → Incident} {i : Nat} (hs : incidentsKeptWhole s) (hx : x ∈ s.iu.log)
    (hg : (g x).serial = x.serial) (hgi : (g x).holdIndex = none) (hxi : x.holdIndex = some i) :
    incidentsKeptWhole ((s.withIu (s.iu.updateRecord x.serial g)).withRu (s.ru.releaseOwned i (.incident x.serial))) := by
  refine whole_changeRecord hs hx hg (releaseOwned_sublist _ _ _) (Ru.releaseOwned_rest _ _ _).1 fun j n => ?_
  rw [incidentHolds_releaseOwned, hgi, holdsPaired_iff.mp hs.2.2 j n]
  constructor
  · rintro ⟨⟨y, hy, rfl, hyi⟩, hne⟩
    refine .inr ⟨fun he => hne ⟨?_, congrArg _ he.symm⟩, y, hy, rfl, hyi⟩
    obtain rfl := eq_of_serial hs.1.1 hy hx he
    exact Option.some.inj (hyi.symm.trans hxi)
  · rintro (⟨-, h⟩ | ⟨hn, h⟩)
    · cases h
    · exact ⟨h, fun ⟨_, ho⟩ => hn (Owner.incident.inj ho).symm⟩

end operations

/-! ## The commands -/

section commands

variable {s : State}

theorem fetchFrom_whole {l : Link} {k : Nat} (hs : incidentsKeptWhole s) : incidentsKeptWhole (fetchFrom s l k).1 := by
  obtain ⟨⟨hpair, hlen, hlt, hcur⟩, hrest⟩ := hs
  have hafter : 1 ≤ cursorAfter s.iu.log s.iu.nextSerial k ∧ cursorAfter s.iu.log s.iu.nextSerial k ≤ s.iu.nextSerial := by
    unfold cursorAfter
    split
    · rename_i x hx
      have hmem : x ∈ s.iu.log := List.mem_of_mem_filter (List.mem_of_mem_take (List.mem_of_getLast? hx))
      exact ⟨Nat.le_add_left _ _, hlt x hmem⟩
    · exact ⟨(hcur l).1.trans (hcur l).2, Nat.le_refl _⟩
  refine ⟨⟨hpair, hlen, hlt, fun m => ?_⟩, hrest⟩
  simp only [fetchFrom, State.withIu_iu, Tri.get_set]
  split
  · exact hafter
  · exact hcur m

theorem incidentFetchTaken_whole (l : Link) (start : Option (BitVec 32)) (hs : incidentsKeptWhole s) :
    incidentsKeptWhole (incidentFetchTaken l start s).1 := by
  unfold incidentFetchTaken
  split
  · exact fetchFrom_whole hs
  · split
    · exact hs
    · exact fetchFrom_whole hs

theorem reviewOpen_whole {x : Incident} (release : Bool) (hs : incidentsKeptWhole s) (hx : x ∈ s.iu.log) :
    incidentsKeptWhole (reviewOpen s x release).1 := by
  unfold reviewOpen
  split
  · exact whole_giveUp hs hx rfl rfl (by assumption)
  · exact whole_updateRecord hs hx rfl rfl

theorem incidentReviewTaken_whole (a : IncidentReviewArgs) (hs : incidentsKeptWhole s) : incidentsKeptWhole (incidentReviewTaken a s).1 := by
  unfold incidentReviewTaken
  split
  · exact hs
  · split
    · exact hs
    · exact hs
    · rename_i hfind
      split
      · exact hs
      · exact reviewOpen_whole _ hs (List.mem_of_find?_eq_some hfind)

theorem holdPlaceTaken_whole (l : Link) (a : HoldPlaceArgs) (hs : incidentsKeptWhole s) : incidentsKeptWhole (holdPlaceTaken l a s).1 := by
  unfold holdPlaceTaken
  split
  · exact hs
  · rename_i hp
    exact whole_take hs (fun _ => Owner.noConfusion) hp

/-- The release of a hold that no incident owns leaves the records alone. -/
theorem release_keeps {i : Nat} {h : Hold} (hget : tableGet s.ru.holds i = some h) (ho : ∀ n, h.owner ≠ .incident n) :
    KeepsIncidents s (s.withRu (s.ru.release i)) where
  log := rfl
  nextSerial := rfl
  cursors := rfl
  counter := rfl
  holds := List.filter_sublist
  owned j n := by
    have hrel : s.ru.release i = s.ru.releaseOwned i h.owner := by simp [Ru.releaseOwned_eq, hget]
    rw [State.withRu_ru, hrel, incidentHolds_releaseOwned]
    exact ⟨And.left, fun hj => ⟨hj, fun ⟨_, hn⟩ => ho n hn⟩⟩

theorem releaseByOwner_whole {i : Nat} {h : Hold} (hs : incidentsKeptWhole s) (hget : tableGet s.ru.holds i = some h) :
    incidentsKeptWhole (releaseByOwner s i h).1 := by
  unfold releaseByOwner
  simp only
  split
  · rename_i ho
    exact whole_of_keeps (release_keeps hget fun n => by simp [ho]) hs
  · rename_i n ho
    obtain ⟨x, hx, rfl, hi⟩ := (holdsPaired_iff.mp hs.2.2 i n).mp (incidentHolds_iff.mpr ⟨h, hget, ho⟩)
    have hrel : s.ru.release i = s.ru.releaseOwned i (.incident x.serial) := by simp [Ru.releaseOwned_eq, hget, ho]
    rw [hrel]
    exact whole_giveUp (g := Incident.unhold) hs hx rfl rfl hi
  · exact hs

theorem holdReleaseTaken_whole (a : HoldReleaseArgs) (hs : incidentsKeptWhole s) : incidentsKeptWhole (holdReleaseTaken a s).1 := by
  unfold holdReleaseTaken
  split
  · exact hs
  · split
    · exact hs
    · split
      · exact hs
      · exact releaseByOwner_whole hs (by assumption)

theorem exportStartTaken_whole (l : Link) (x : ExportStartArgs) (hs : incidentsKeptWhole s) :
    incidentsKeptWhole (exportStartTaken l x s).1 := by
  have hs := whole_of_keeps (keeps_stallFirst s) hs
  unfold exportStartTaken
  simp only
  split
  · exact hs
  · split
    · exact hs
    · split
      · unfold pinAndQueue
        split
        · exact hs
        · split
          · exact hs
          · exact hs
          · rename_i hp
            exact whole_of_keeps (.of_view (view_queueJob _ _)) (whole_take hs (fun _ => Owner.noConfusion) hp)
      · exact hs

theorem loseHold_serial (x : Incident) : x.loseHold.serial = x.serial := by
  unfold Incident.loseHold
  split <;> rfl

theorem loseHold_holdIndex (x : Incident) : x.loseHold.holdIndex = none := by
  unfold Incident.loseHold
  split
  · rfl
  · rename_i h
    exact Option.not_isSome_iff_eq_none.mp h

/-- After ARCHIVE_RESET no hold is left and no record names one (R120, R136). -/
theorem archiveResetTaken_whole (u : Unit) (hs : incidentsKeptWhole s) : incidentsKeptWhole (archiveResetTaken u s).1 := by
  have hs := whole_of_keeps (keeps_stallFirst s) hs
  unfold archiveResetTaken
  simp only
  split
  · exact hs
  · refine whole_of_keeps ((keeps_resetExports _).then_view rfl) ?_
    refine whole_update (g := Incident.loseHold) hs (fun x _ => loseHold_serial x) rfl rfl rfl (List.nil_sublist _) rfl fun i n => ?_
    simp only [loseHold_holdIndex]
    constructor
    · intro h
      cases h
    · rintro ⟨x, -, -, h⟩
      cases h

theorem passRequest_whole {α : Type} {k : Nat} {l : Link} {p : Payload α} {t : State} {body : α → State → State × Reply}
    (h : Host.Outcome.next (φ := Fault) (ρ := Refusal) (passRequest k l p s body) = .next t)
    (hbody : ∀ a x, incidentsKeptWhole x → incidentsKeptWhole (body a x).1) (hs : incidentsKeptWhole s) : incidentsKeptWhole t :=
  Host.Outcome.next.inj h ▸ passRequest_keeps whole_of_keeps hbody hs

theorem exec_keepsWhole {c : Instr} {t : State} (hs : incidentsKeptWhole s) (h : exec c s = .next t) : incidentsKeptWhole t := by
  cases c with
  | powerOn straps =>
    obtain rfl := Host.Outcome.next.inj h
    exact whole_afterReset _ _ _
  | resetPin pin =>
    obtain rfl := Host.Outcome.next.inj h
    cases pin with
    | held => exact whole_of_keeps (.of_view rfl) (whole_afterReset s.pending (s.ac.epoch + 1) (s.li.links.map (·.role)))
    | released straps => exact whole_afterReset _ _ _
  | incidentReport n =>
    obtain rfl := Host.Outcome.next.inj h
    split
    · exact hs
    · exact whole_handleReport _ (whole_of_keeps (.of_view rfl) hs)
  | incidentFetch l p => exact passRequest_whole h (fun a _ hx => incidentFetchTaken_whole l a hx) hs
  | incidentReview l p => exact passRequest_whole h (fun a _ hx => incidentReviewTaken_whole a hx) hs
  | holdPlace l p => exact passRequest_whole h (fun a _ hx => holdPlaceTaken_whole l a hx) hs
  | holdRelease l p => exact passRequest_whole h (fun a _ hx => holdReleaseTaken_whole a hx) hs
  | exportStart l p => exact passRequest_whole h (fun a _ hx => exportStartTaken_whole l a hx) hs
  | archiveReset l p => exact passRequest_whole h (fun a _ hx => archiveResetTaken_whole a hx) hs
  | _ => exact whole_of_keeps (exec_keepsIncidents rfl h) hs

end commands

/-- Settles O45: a step is `exec` of the front command, and every command keeps the incidents whole. -/
theorem incidentsAreKeptWhole : Obligations.IncidentsAreKeptWhole := by
  unfold Obligations.IncidentsAreKeptWhole
  intro s t hs h
  unfold step at h
  split at h
  · exact Host.Outcome.next.inj h ▸ hs
  · rename_i rest _
    exact exec_keepsWhole (whole_of_keeps (s := s) (t := { s with pending := rest }) (.of_view rfl) hs) h

end Sys2Proof.Proofs.Incidents
end

section

namespace Sys2Proof.Proofs.Incidents

open Sys2Proof Sys2Proof.Machine

/-!
# The policy table (R104, R105)

POLICY_WRITE brings the rolls into range and replaces the entry of a kind, POLICY_READ shows an entry.
-/

/-! ## Operands -/

/-- A byte names the incident kind at its place, or lies beyond the twelve kinds (section 6.1). -/
theorem incidentKindOf_cases (b : Byte) :
    (∃ k, incidentKindOf b = some k ∧ k.place = b.toNat) ∨ (incidentKindOf b = none ∧ 11 < b.toNat) := by
  unfold incidentKindOf
  split
  case h_13 => exact .inr ⟨rfl, by simp only [imp_false] at *; omega⟩
  all_goals exact .inl ⟨_, rfl, Eq.symm (by assumption)⟩

theorem incidentKindOf_of_le {b : Byte} (h : b.toNat ≤ 11) : ∃ k, incidentKindOf b = some k ∧ k.place = b.toNat :=
  (incidentKindOf_cases b).resolve_right fun ⟨_, hb⟩ => Nat.not_lt.mpr h hb

theorem incidentKind_place_le (k : IncidentKind) : k.place ≤ 11 := by
  cases k <;> decide

theorem incidentKindOf_of_gt {b : Byte} (h : 11 < b.toNat) : incidentKindOf b = none := by
  rcases incidentKindOf_cases b with ⟨k, -, hk⟩ | ⟨hnone, -⟩
  · have := incidentKind_place_le k
    omega
  · exact hnone

theorem modeOf_cases (b : Byte) : (∃ m, modeOf b = some m ∧ m.place = b.toNat) ∨ (modeOf b = none ∧ 2 < b.toNat) := by
  unfold modeOf
  split
  case h_4 => exact .inr ⟨rfl, by simp only [imp_false] at *; omega⟩
  all_goals exact .inl ⟨_, rfl, Eq.symm (by assumption)⟩

theorem modeOf_of_le {b : Byte} (h : b.toNat ≤ 2) : ∃ m, modeOf b = some m ∧ m.place = b.toNat :=
  (modeOf_cases b).resolve_right fun ⟨_, hb⟩ => Nat.not_lt.mpr h hb

theorem modeOf_of_gt {b : Byte} (h : 2 < b.toNat) : modeOf b = none := by
  rcases modeOf_cases b with ⟨m, -, hm⟩ | ⟨hnone, -⟩
  · have hm' : m.place ≤ 2 := by cases m <;> decide
    omega
  · exact hnone

theorem autoHoldOf_of_le {b : Byte} (h : b.toNat ≤ 1) : autoHoldOf b = some (decide (b = 1)) := by
  rcases Nat.le_one_iff_eq_zero_or_eq_one.mp h with h | h
  · obtain rfl : b = 0 := BitVec.eq_of_toNat_eq h
    rfl
  · obtain rfl : b = 1 := BitVec.eq_of_toNat_eq h
    rfl

theorem autoHoldOf_of_gt {b : Byte} (h : 1 < b.toNat) : autoHoldOf b = none := by
  have h0 : b ≠ 0 := by rintro rfl; exact absurd h (by decide)
  have h1 : b ≠ 1 := by rintro rfl; exact absurd h (by decide)
  simp only [autoHoldOf, if_neg h0, if_neg h1]

theorem rollInRange_eq (b : BitVec 16) : (rollInRange b : Int) = max 0 (min 600 b.toInt) :=
  Segments.clampInt_toNat (le_refl 0) 600 b.toInt

/-! ## The two requests -/

section policy

variable {l : Link} {s : State}

theorem exec_policyWrite_refused {a : PolicyWriteArgs} (h : s.mayAsk l 33)
    (ha : 11 < a.kind.toNat ∨ 2 < a.mode.toNat ∨ 1 < a.autoHold.toNat) :
    exec (.policyWrite l (.fits a)) s = .next { s with li := s.li.passed l 33 ⟨.badArgument, []⟩ } := by
  refine congrArg Host.Outcome.next (Loudness.passRequest_of_read h fun li => ?_)
  unfold policyWriteTaken
  split
  · rename_i hk hm hh
    rcases ha with ha | ha | ha
    · cases (incidentKindOf_of_gt ha).symm.trans hk
    · cases (modeOf_of_gt ha).symm.trans hm
    · cases (autoHoldOf_of_gt ha).symm.trans hh
  · rfl

/-- The entry that a POLICY_WRITE stores (R105). -/
def writtenEntry (a : PolicyWriteArgs) (m : Mode) : PolicyEntry :=
  ⟨m, rollInRange a.preRoll, rollInRange a.postRoll, decide (a.autoHold = 1)⟩

theorem rollsKept_iff (a : PolicyWriteArgs) : (rollKept a.preRoll && rollKept a.postRoll) = true ↔
    (rollInRange a.preRoll : Int) = a.preRoll.toInt ∧ (rollInRange a.postRoll : Int) = a.postRoll.toInt := by
  simp only [rollKept, Bool.and_eq_true, decide_eq_true_eq]

theorem exec_policyWrite {a : PolicyWriteArgs} {k : IncidentKind} {m : Mode} (h : s.mayAsk l 33) (hk : incidentKindOf a.kind = some k)
    (hm : modeOf a.mode = some m) (hh : a.autoHold.toNat ≤ 1) :
    exec (.policyWrite l (.fits a)) s = .next { s with
      iu := { s.iu with policy := s.iu.policy.set k.place (writtenEntry a m) }
      li := s.li.passed l 33
        ⟨if (rollInRange a.preRoll : Int) = a.preRoll.toInt ∧ (rollInRange a.postRoll : Int) = a.postRoll.toInt then .ok else .clamped,
         .byte k.place :: policyFields (writtenEntry a m)⟩ } := by
  rw [← if_congr (rollsKept_iff a) rfl rfl]
  refine congrArg Host.Outcome.next (Schedule.passRequest_of_body
    (s' := s.withIu { s.iu with policy := s.iu.policy.set k.place (writtenEntry a m) }) h fun li => ?_)
  simp only [policyWriteTaken, hk, hm, autoHoldOf_of_le hh]
  rfl

theorem exec_policyRead_refused {b : Byte} (h : s.mayAsk l 8) (hb : 11 < b.toNat) :
    exec (.policyRead l (.fits b)) s = .next { s with li := s.li.passed l 8 ⟨.badArgument, []⟩ } :=
  congrArg Host.Outcome.next (Loudness.passRequest_of_read h fun li => by
    simp only [policyReadTaken, incidentKindOf_of_gt hb, refuse])

theorem policyOf_eq {x : Iu} {k : IncidentKind} {e : PolicyEntry} (h : x.policy[k.place]? = some e) : x.policyOf k = e := by
  rw [Iu.policyOf, List.getD_eq_getElem?_getD, h]
  rfl

theorem exec_policyRead {b : Byte} {e : PolicyEntry} (h : s.mayAsk l 8) (hlen : s.iu.policy.length = 12)
    (he : s.iu.policy[b.toNat]? = some e) :
    exec (.policyRead l (.fits b)) s = .next { s with li := s.li.passed l 8 ⟨.ok, policyFields e⟩ } := by
  obtain ⟨hlt, -⟩ := List.getElem?_eq_some_iff.mp he
  obtain ⟨k, hk, hplace⟩ := incidentKindOf_of_le (b := b) (by omega)
  refine congrArg Host.Outcome.next (Loudness.passRequest_of_read h fun li => ?_)
  simp only [policyReadTaken, hk, State.withLi_iu, policyOf_eq (hplace ▸ he)]

end policy

/-- Settles O41: the operands are places in their lists, and `rollInRange` is the clamp of R105. -/
theorem policyIsWrittenAndRead : Obligations.PolicyIsWrittenAndRead := by
  unfold Obligations.PolicyIsWrittenAndRead
  refine ⟨fun l a s h _ => ⟨exec_policyWrite_refused h, fun hk hm hh => ?_⟩,
    fun l b s h hlen => ⟨exec_policyRead_refused h, fun e => exec_policyRead h hlen⟩⟩
  obtain ⟨k, hkind, hkplace⟩ := incidentKindOf_of_le hk
  obtain ⟨m, hmode, hmplace⟩ := modeOf_of_le hm
  refine ⟨writtenEntry a m, ?_, hmplace, rfl, rollInRange_eq a.preRoll, rollInRange_eq a.postRoll⟩
  rw [exec_policyWrite h hkind hmode hh, hkplace, ← hmplace]
  rfl

end Sys2Proof.Proofs.Incidents
end

section

namespace Sys2Proof.Proofs.Incidents

open Sys2Proof Sys2Proof.Machine

/-!
# Fetching and reviewing incidents (R106, R115 to R117)
-/

/-! ## What a fetch returns (R115, R116) -/

/-- A record in the parts of R106, those that may be absent as they are given. -/
theorem incidentFields_of (x : Incident) {feed handle segmentId segmentKind measured limit holdIndex holdRange : List Wire}
    (hfeed : optionalField (fun (f : Feed) => [.byte f.val]) x.feed = feed) (hhandle : optionalField handleFields x.handle = handle)
    (hid : optionalField (fun n => [.long n]) x.segmentId = segmentId)
    (hkind : optionalField (fun (k : NamedKind) => [.byte k.place]) x.segmentKind = segmentKind)
    (hmeasured : optionalField (fun i => [.signedTick i]) x.measured = measured)
    (hlimit : optionalField (fun i => [.signedTick i]) x.limit = limit)
    (hindex : optionalField (fun n => [.byte n]) x.holdIndex = holdIndex)
    (hrange : optionalField (fun (r : Nat × Nat) => [.tick r.1, .tick r.2]) x.holdRange = holdRange) :
    incidentFields x = List.flatten
      [[.long x.serial, .byte x.kind.place, .byte x.mode.place], feed, handle, segmentId, segmentKind,
       [.tick x.raiseTick, .tick x.subjectFirst, .tick x.subjectLast], measured, limit, [.byte x.outcome.place], holdIndex, holdRange,
       [.choice x.unheld, .choice x.unconfirmed, .byte (if x.reviewed = true then 1 else 0)]] := by
  have hreviewed : x.reviewed.toNat = if x.reviewed = true then 1 else 0 := by cases x.reviewed <;> rfl
  simp only [incidentFields, hfeed, hhandle, hid, hkind, hmeasured, hlimit, hindex, hrange, hreviewed, List.flatten_cons,
    List.flatten_nil, List.append_nil, List.append_assoc]

section fetch

variable {log : List Incident} {next k : Nat}

theorem fetched_leads : fetched log k <+: log.filter (fun x => decide (k ≤ x.serial)) := ⟨_, List.take_append_drop _ _⟩

theorem fetched_length_le : (fetched log k).length ≤ 4 := List.length_take_le _ _

theorem fetched_all (h : (fetched log k).length < 4) : fetched log k = log.filter (fun x => decide (k ≤ x.serial)) := by
  refine List.take_of_length_le ?_
  have hlen : (fetched log k).length = min 4 (log.filter (fun x => decide (k ≤ x.serial))).length := List.length_take
  simp only [Config.recordsPerFetch]
  omega

theorem mem_fetched {x : Incident} (h : x ∈ fetched log k) : x ∈ log ∧ k ≤ x.serial := by
  obtain ⟨hx, hk⟩ := List.mem_filter.mp (List.mem_of_mem_take h)
  exact ⟨hx, of_decide_eq_true hk⟩

theorem fetched_pairwise (hlog : log.Pairwise (fun a b => a.serial < b.serial)) :
    (fetched log k).Pairwise (fun a b => a.serial < b.serial) := (hlog.filter _).take

/-- The last record of an ordered list has the greatest serial. -/
theorem serial_le_getLast {xs : List Incident} (hxs : xs.Pairwise (fun a b => a.serial < b.serial)) {x y : Incident} (hx : x ∈ xs)
    (hy : xs.getLast? = some y) : x.serial ≤ y.serial := by
  obtain ⟨ys, rfl⟩ := List.getLast?_eq_some_iff.mp hy
  obtain ⟨-, -, hlt⟩ := List.pairwise_append.mp hxs
  rcases List.mem_append.mp hx with hx | hx
  · exact Nat.le_of_lt (hlt x hx y List.mem_cons_self)
  · rw [List.mem_singleton.mp hx]

/-- Records in rising order of serial between two serials are no more than the serials between them. -/
theorem length_le_of_serials {xs : List Incident} (hxs : xs.Pairwise (fun a b => a.serial < b.serial)) {b : Nat} :
    ∀ {a : Nat}, (∀ x ∈ xs, a ≤ x.serial ∧ x.serial < b) → xs.length ≤ b - a := by
  induction xs with
  | nil => exact fun _ => Nat.zero_le _
  | cons x xs ih =>
    intro a hrange
    obtain ⟨hx, hrest⟩ := List.pairwise_cons.mp hxs
    have hlen := ih hrest (a := x.serial + 1) fun y hy => ⟨hx y hy, (hrange y (List.mem_cons_of_mem _ hy)).2⟩
    obtain ⟨hax, hxb⟩ := hrange x List.mem_cons_self
    rw [List.length_cons]
    omega

theorem cursorAfter_nil (h : fetched log k = []) : cursorAfter log next k = next := by
  simp only [cursorAfter, h, List.getLast?_nil]

theorem cursorAfter_last {x : Incident} (h : (fetched log k).getLast? = some x) : cursorAfter log next k = x.serial + 1 := by
  simp only [cursorAfter, h]

theorem fetched_lt_cursorAfter (hlog : log.Pairwise (fun a b => a.serial < b.serial)) {x : Incident}
    (hx : x ∈ fetched log k) :
    x.serial < cursorAfter log next k := by
  cases hlast : (fetched log k).getLast? with
  | none =>
    rw [List.getLast?_eq_none_iff.mp hlast] at hx
    cases hx
  | some y =>
    rw [cursorAfter_last hlast]
    exact Nat.lt_succ_of_le (serial_le_getLast (fetched_pairwise hlog) hx hlast)

theorem cursorAfter_range (hnext : ∀ x ∈ log, x.serial < next) (hk : k ≤ next) :
    k ≤ cursorAfter log next k ∧ cursorAfter log next k ≤ next := by
  cases hlast : (fetched log k).getLast? with
  | none =>
    rw [cursorAfter_nil (List.getLast?_eq_none_iff.mp hlast)]
    exact ⟨hk, Nat.le_refl _⟩
  | some y =>
    obtain ⟨hy, hky⟩ := mem_fetched (List.mem_of_getLast? hlast)
    rw [cursorAfter_last hlast]
    exact ⟨Nat.le_succ_of_le hky, hnext y hy⟩

/-- Every serial passed is either that of a record shown or counted as skipped (R116). -/
theorem skippedCount_accounts (hlog : log.Pairwise (fun a b => a.serial < b.serial)) :
    cursorAfter log next k - k = (fetched log k).length + skippedCount log next k := by
  have hlen := length_le_of_serials (fetched_pairwise hlog (k := k)) (a := k) (b := cursorAfter log next k) fun x hx =>
    ⟨(mem_fetched hx).2, fetched_lt_cursorAfter hlog hx⟩
  unfold skippedCount
  omega

theorem moreBeyond_iff :
    moreBeyond log k = true ↔ fetched log k ≠ [] ∧ ∃ x ∈ log, cursorAfter log next k ≤ x.serial := by
  cases hlast : (fetched log k).getLast? with
  | none => simp [moreBeyond, List.getLast?_eq_none_iff.mp hlast]
  | some y =>
    have hne : fetched log k ≠ [] := fun h => by simp [h] at hlast
    simp [moreBeyond, hlast, cursorAfter_last hlast, hne]

end fetch

section requests

variable {l : Link} {s : State} {start : Option (BitVec 32)} {k : Nat}

theorem exec_incidentFetch_refused {b : BitVec 32} (h : s.mayAsk l 5) (hb : b = 0 ∨ s.iu.nextSerial < b.toNat) :
    exec (.incidentFetch l (.fits (some b))) s = .next { s with li := s.li.passed l 5 ⟨.badArgument, []⟩ } :=
  congrArg Host.Outcome.next (Loudness.passRequest_of_read h fun _ => if_pos hb)

/-- A fetch that is accepted starts at the cursor, or at the serial it names (R115). -/
theorem exec_incidentFetch (h : s.mayAsk l 5)
    (hk : (start = none ∧ k = s.iu.cursors.get l) ∨ (∃ b, start = some b ∧ k = b.toNat ∧ b ≠ 0 ∧ b.toNat ≤ s.iu.nextSerial)) :
    exec (.incidentFetch l (.fits start)) s = .next { s with
      iu := { s.iu with cursors := s.iu.cursors.set l (cursorAfter s.iu.log s.iu.nextSerial k) }
      li := s.li.passed l 5 (fetchFrom s l k).2 } := by
  refine congrArg Host.Outcome.next (Schedule.passRequest_of_body (s' := (fetchFrom s l k).1) h fun li => ?_)
  rcases hk with ⟨rfl, rfl⟩ | ⟨b, rfl, rfl, hb0, hb⟩
  · rfl
  · have hok : ¬ (b = 0 ∨ s.iu.nextSerial < b.toNat) := by
      rintro (h | h)
      · exact hb0 h
      · exact Nat.not_lt.mpr hb h
    exact if_neg hok

end requests

/-- Settles O43: the records fetched, the cursor after them and the skipped count, each by what it is. -/
theorem fetchAccountsForEverySerial : Obligations.FetchAccountsForEverySerial := by
  unfold Obligations.FetchAccountsForEverySerial
  refine ⟨fun x => incidentFields_of x (by cases x.feed <;> rfl) (by cases x.handle <;> rfl) (by cases x.segmentId <;> rfl)
    (by cases x.segmentKind <;> rfl) (by cases x.measured <;> rfl) (by cases x.limit <;> rfl) (by cases x.holdIndex <;> rfl)
    (by cases x.holdRange <;> rfl), fun l start s k h ⟨hlog, hlen, hnext, hcur⟩ => ⟨?_, fun hk => ?_⟩⟩
  · rintro b rfl hb
    exact exec_incidentFetch_refused h hb
  · have hkn : k ≤ s.iu.nextSerial := by
      rcases hk with ⟨-, rfl⟩ | ⟨b, -, rfl, -, hb⟩
      · exact (hcur l).2
      · exact hb
    obtain ⟨hge, hle⟩ := cursorAfter_range hnext hkn
    exact ⟨fetched s.iu.log k, skippedCount s.iu.log s.iu.nextSerial k, cursorAfter s.iu.log s.iu.nextSerial k, moreBeyond s.iu.log k,
      exec_incidentFetch h hk, fetched_leads, fetched_length_le, fetched_all, rfl, hge, hle,
      skippedCount_accounts hlog, fun x hx => fetched_lt_cursorAfter hlog hx, moreBeyond_iff⟩

end Sys2Proof.Proofs.Incidents
end

section

namespace Sys2Proof.Proofs.Incidents

open Sys2Proof Sys2Proof.Machine

/-!
# INCIDENT_REVIEW (R117)
-/

/-- A choice byte of 0 or 1 is no or yes (R197). -/
theorem choiceOf_of_toNat {b : Byte} {c : Bool} (h : b.toNat = c.toNat) : choiceOf b = some c := by
  cases c with
  | false =>
    obtain rfl : b = 0 := BitVec.eq_of_toNat_eq h
    rfl
  | true =>
    obtain rfl : b = 1 := BitVec.eq_of_toNat_eq h
    rfl

/-- A serial names the one record that carries it (R107). -/
theorem find_serial {log : List Incident} (hlog : log.Pairwise (fun a b => a.serial < b.serial)) {x : Incident} (hx : x ∈ log) {n : Nat}
    (hn : x.serial = n) : log.find? (fun y => y.serial = n) = some x := by
  obtain ⟨y, hy⟩ : ∃ y, log.find? (fun y => y.serial = n) = some y :=
    Option.isSome_iff_exists.mp (List.find?_isSome.mpr ⟨x, hx, decide_eq_true hn⟩)
  have hserial : y.serial = n := by simpa using List.find?_some hy
  rw [hy, eq_of_serial hlog (List.mem_of_find?_eq_some hy) hx (hserial.trans hn.symm)]

section releases

variable {ru : Ru} {i : Nat} {o : Owner}

theorem releaseOwned_own {h : Hold} (hget : tableGet ru.holds i = some h) (ho : h.owner = o) :
    ru.releaseOwned i o = { ru with holds := tableErase ru.holds i } := by
  rw [Ru.releaseOwned_eq, if_pos (by rw [hget, Option.map_some, ho])]
  rfl

theorem releaseOwned_other (h : ∀ h, tableGet ru.holds i = some h → h.owner ≠ o) : ru.releaseOwned i o = ru := by
  rw [Ru.releaseOwned_eq, if_neg]
  rintro hmap
  obtain ⟨x, hget, ho⟩ := Option.map_eq_some_iff.mp hmap
  exact h x hget ho

end releases

section review

variable {s : State} {x : Incident} {release : Bool}

/-- A review without a release marks the record (R117). -/
theorem reviewOpen_kept (h : release = false ∨ x.holdIndex = none) :
    reviewOpen s x release = (s.withIu (s.iu.updateRecord x.serial (fun _ => { x with reviewed := true })),
      ⟨.ok, incidentFields { x with reviewed := true }⟩) := by
  unfold reviewOpen
  split
  · rename_i hi
    rcases h with h | h
    · cases h
    · rw [h] at hi
      cases hi
  · rfl

/-- A review with a release gives the record's hold up (R113, R117). -/
theorem reviewOpen_released {i : Nat} (h : x.holdIndex = some i) :
    reviewOpen s x true = ((s.withIu (s.iu.updateRecord x.serial (fun _ => { x.unhold with reviewed := true }))).withRu
      (s.ru.releaseOwned i (.incident x.serial)), ⟨.ok, incidentFields { x.unhold with reviewed := true }⟩) := by
  simp only [reviewOpen, h]

theorem reviewOpen_withLi (li : Li) :
    reviewOpen (s.withLi li) x release = ((reviewOpen s x release).1.withLi li, (reviewOpen s x release).2) := by
  unfold reviewOpen
  split <;> rfl

variable {l : Link} {a : IncidentReviewArgs}

theorem exec_incidentReview_refused (h : s.mayAsk l 38) (ha : a.serial = 0 ∨ s.iu.nextSerial ≤ a.serial.toNat) :
    exec (.incidentReview l (.fits a)) s = .next { s with li := s.li.passed l 38 ⟨.badArgument, []⟩ } :=
  congrArg Host.Outcome.next (Loudness.passRequest_of_read h fun _ => if_pos ha)

variable (h0 : a.serial ≠ 0) (hn : a.serial.toNat < s.iu.nextSerial) (hrel : a.release.toNat = release.toNat)

include h0 hn hrel

/-- A serial that was issued is looked for in the log (R117). -/
theorem incidentReviewTaken_issued (li : Li) : incidentReviewTaken a (s.withLi li) =
    match s.iu.log.find? (fun x => x.serial = a.serial.toNat) with
    | none => (s.withLi li, ⟨.notFound, []⟩)
    | some x => if x.reviewed then (s.withLi li, ⟨.ok, incidentFields x⟩) else reviewOpen (s.withLi li) x release := by
  have hok : ¬ (a.serial = 0 ∨ s.iu.nextSerial ≤ a.serial.toNat) := by
    rintro (h | h)
    · exact h0 h
    · exact Nat.not_le.mpr hn h
  refine (if_neg hok).trans ?_
  rw [choiceOf_of_toNat hrel, State.withLi_iu]
  cases s.iu.log.find? (fun x => x.serial = a.serial.toNat) <;> rfl

theorem exec_incidentReview_gone (h : s.mayAsk l 38) (hgone : ∀ x ∈ s.iu.log, x.serial ≠ a.serial.toNat) :
    exec (.incidentReview l (.fits a)) s = .next { s with li := s.li.passed l 38 ⟨.notFound, []⟩ } := by
  refine congrArg Host.Outcome.next (Loudness.passRequest_of_read h fun li => ?_)
  have hfind : s.iu.log.find? (fun x => x.serial = a.serial.toNat) = none :=
    List.find?_eq_none.mpr fun x hx => by simpa using hgone x hx
  rw [incidentReviewTaken_issued h0 hn hrel, hfind]

variable (hlog : s.iu.log.Pairwise (fun a b => a.serial < b.serial)) (hx : x ∈ s.iu.log) (hserial : x.serial = a.serial.toNat)

include hlog hx hserial

theorem exec_incidentReview_again (h : s.mayAsk l 38) (hrev : x.reviewed = true) :
    exec (.incidentReview l (.fits a)) s = .next { s with li := s.li.passed l 38 ⟨.ok, incidentFields x⟩ } := by
  refine congrArg Host.Outcome.next (Loudness.passRequest_of_read h fun li => ?_)
  rw [incidentReviewTaken_issued h0 hn hrel, find_serial hlog hx hserial]
  exact if_pos hrev

theorem exec_incidentReview_first (h : s.mayAsk l 38) (hrev : x.reviewed = false) :
    exec (.incidentReview l (.fits a)) s =
      .next { (reviewOpen s x release).1 with li := s.li.passed l 38 (reviewOpen s x release).2 } := by
  refine congrArg Host.Outcome.next (Schedule.passRequest_of_body h fun li => ?_)
  rw [incidentReviewTaken_issued h0 hn hrel, find_serial hlog hx hserial, ← reviewOpen_withLi]
  exact if_neg (by simp [hrev])

end review

/-- Settles O44: the refusals, a second review, and a first one with and without a release. -/
theorem reviewMarksTheRecord : Obligations.ReviewMarksTheRecord := by
  unfold Obligations.ReviewMarksTheRecord
  intro l a s release h ⟨hlog, _, hnext, _⟩ hrel
  refine ⟨exec_incidentReview_refused h, fun h0 hn hgone => exec_incidentReview_gone h0 hn hrel h hgone, fun x hx hserial h0 => ?_⟩
  have hn : a.serial.toNat < s.iu.nextSerial := hserial ▸ hnext x hx
  refine ⟨exec_incidentReview_again h0 hn hrel hlog hx hserial h, fun hrev => ?_⟩
  have hexec := exec_incidentReview_first h0 hn hrel hlog hx hserial h hrev
  by_cases hkept : release = false ∨ x.holdIndex = none
  · rw [reviewOpen_kept hkept] at hexec
    refine ⟨_, _, hexec, rfl, fun _ => ⟨rfl, rfl⟩, fun i ht hi => ?_⟩
    rcases hkept with hf | hnone
    · cases ht.symm.trans hf
    · cases hi.symm.trans hnone
  · obtain ⟨ht, hsome⟩ := not_or.mp hkept
    obtain rfl := Bool.eq_true_of_not_eq_false ht
    obtain ⟨i, hi⟩ := Option.ne_none_iff_exists'.mp hsome
    rw [reviewOpen_released hi] at hexec
    refine ⟨_, _, hexec, rfl, fun hk => absurd hk hkept, fun j _ hj => ?_⟩
    obtain rfl := Option.some.inj (hi.symm.trans hj)
    exact ⟨rfl, fun hold hget ho => releaseOwned_own hget ho, releaseOwned_other⟩

end Sys2Proof.Proofs.Incidents
end

section

namespace Sys2Proof.Proofs.Incidents

open Sys2Proof Sys2Proof.Machine

/-!
# Taking a report (R103, R107 to R112)

What raising an incident leaves is one state, with the hold fields and the Hold Table that the policy's auto-hold makes of it; in a full log the
discard comes before.
-/

/-! ## The checks of a placement (R125, R126) -/

theorem retentionFloor_eq (s : State) :
    s.retentionFloor = match s.rc.spans with | [] => s.fiu.openTick | z :: _ => z.firstTick := by
  unfold State.retentionFloor oldestPresent
  cases s.rc.spans <;> rfl

section placement

variable {s : State} {o : Owner} {first last reason : Nat}

/-- The checks of R125 for a range that is in order and below the horizon. -/
theorem judgePlacement_within (hle : first ≤ last) (hhorizon : last ≤ s.fiu.openTick + 35999) :
    judgePlacement s o first last reason =
      if s.ac.state ≠ .recording then .refused .wrongState
      else if last < s.retentionFloor then .refused .notFound
      else if s.ru.quota < committedSum s.ru.holds + (last - max first s.retentionFloor + 1) then .refused .quota
      else match tableFree s.ru.holds 64 with
        | none => .refused .full
        | some i => .placed i ⟨s.ru.counter, o, max first s.retentionFloor, last, reason⟩ (decide (first < s.retentionFloor)) := by
  have hh : ¬ s.retentionHorizon < last := by
    have : s.retentionHorizon = s.fiu.openTick + 35999 := rfl
    omega
  simp only [judgePlacement, placeAbove, if_neg (Nat.not_lt.mpr hle), if_neg hh]
  rfl

end placement

/-! ## The record and its hold (R106 to R111) -/

section raised

variable (s : State) (p : PolicyEntry) (r : Report)

/-- What the policy's auto-hold leaves in the record (R108, R109). -/
def raisedFields : HoldFields :=
  if p.autoHold then (autoHold s p s.iu.nextSerial r).holdFields else ⟨.notRequested, none, none, false⟩

/-- What it leaves of the Retention Unit. -/
def raisedRu : Ru := if p.autoHold then s.ru.take (autoHold s p s.iu.nextSerial r) else s.ru

/-- The record that is raised (R106). -/
def raisedRecord : Incident :=
  incidentOf s.iu.nextSerial p.mode r (raisedFields s p r) (raisedUnconfirmed s.sg.table r)

theorem raiseIncident_eq :
    s.raiseIncident p r = (s.makeRoom.withRu (raisedRu s.makeRoom p r)).appendIncident (raisedRecord s.makeRoom p r) := by
  unfold State.raiseIncident raisedRecord raisedFields raisedRu
  simp only
  split <;> rfl

variable {s p r}

theorem raised_unasked (h : p.autoHold = false) :
    raisedRu s p r = s.ru ∧ raisedFields s p r = ⟨.notRequested, none, none, false⟩ := by
  simp [raisedRu, raisedFields, h]

/-- A record that names no hold was refused one (R109). -/
theorem raised_refused (h : p.autoHold = true) (hi : (raisedFields s p r).index = none) :
    raisedRu s p r = s.ru ∧ (raisedFields s p r).unheld = true ∧ (raisedFields s p r).range = none := by
  unfold raisedFields at hi
  unfold raisedRu raisedFields
  simp only [if_pos h] at hi ⊢
  cases ha : autoHold s p s.iu.nextSerial r with
  | refused st => exact ⟨rfl, rfl, rfl⟩
  | placed i hold c =>
    rw [ha] at hi
    cases hi

/-- A record that names a hold has it over its evidence range, from the retention floor on (R108, R109, R126, R127). -/
theorem raised_placed (h : p.autoHold = true) {i : Nat} (hi : (raisedFields s p r).index = some i) :
    (raisedFields s p r).unheld = false ∧ ∃ hold : Hold,
      raisedRu s p r = { s.ru with holds := tablePut s.ru.holds i hold, counter := s.ru.counter + 1 } ∧
      tableGet s.ru.holds i = none ∧ hold.number = s.ru.counter ∧ hold.owner = .incident s.iu.nextSerial ∧
      (raisedFields s p r).range = some (hold.first, hold.last) ∧ hold.reason = 0 ∧
      r.subjectFirst - p.preRoll ≤ hold.first ∧ hold.last = r.subjectLast + p.postRoll := by
  unfold raisedFields at hi
  unfold raisedRu raisedFields
  simp only [if_pos h] at hi ⊢
  cases ha : autoHold s p s.iu.nextSerial r with
  | refused st =>
    rw [ha] at hi
    cases hi
  | placed j hold c =>
    rw [ha] at hi
    obtain rfl := Option.some.inj hi
    obtain ⟨-, -, -, -, -, -, hfree, -, rfl, -⟩ := judgePlacement_placed ha
    exact ⟨rfl, _, rfl, hfree, rfl, rfl, rfl, rfl, le_max_left _ _, rfl⟩

/-- The outcome of an auto-hold is that of the first check of R125 that refuses it, or a hold at the lowest free entry. -/
theorem raised_outcome {first last floor : Nat} (h : p.autoHold = true) (hfirst : first = r.subjectFirst - p.preRoll)
    (hlast : last = r.subjectLast + p.postRoll) (hle : first ≤ last) (hhorizon : last ≤ s.fiu.openTick + 35999)
    (hfloor : floor = s.retentionFloor) :
    if s.ac.state ≠ .recording then (raisedFields s p r).outcome = .wrongState ∧ (raisedFields s p r).index = none
    else if last < floor then (raisedFields s p r).outcome = .notFound ∧ (raisedFields s p r).index = none
    else if s.ru.quota < (s.ru.holds.map (fun e => e.2.last - e.2.first + 1)).sum + (last - max first floor + 1) then
      (raisedFields s p r).outcome = .quota ∧ (raisedFields s p r).index = none
    else if ∀ i : Fin 64, (tableGet s.ru.holds i.val).isSome = true then
      (raisedFields s p r).outcome = .full ∧ (raisedFields s p r).index = none
    else (raisedFields s p r).outcome = (if first < floor then .placedClamped else .placed) ∧
      (raisedFields s p r).range = some (max first floor, last) ∧
      ∃ i, (raisedFields s p r).index = some i ∧ i < 64 ∧ tableGet s.ru.holds i = none ∧ ∀ j, j < i → tableGet s.ru.holds j ≠ none := by
  have hsum : committedSum s.ru.holds = (s.ru.holds.map (fun e => e.2.last - e.2.first + 1)).sum := rfl
  have hfields : raisedFields s p r = (judgePlacement s (.incident s.iu.nextSerial) first last 0).holdFields := by
    rw [raisedFields, if_pos h, autoHold, hfirst, hlast]
  rw [hfields, judgePlacement_within hle hhorizon, hsum, ← hfloor]
  split
  · exact ⟨rfl, rfl⟩
  split
  · exact ⟨rfl, rfl⟩
  split
  · exact ⟨rfl, rfl⟩
  cases hfree : tableFree s.ru.holds 64 with
  | none =>
    have hall : ∀ i : Fin 64, (tableGet s.ru.holds i.val).isSome = true := fun i => tableFree_eq_none.mp hfree i.val i.isLt
    rw [if_pos hall]
    exact ⟨rfl, rfl⟩
  | some i =>
    obtain ⟨hlt, hnone, hlower⟩ := tableFree_eq_some.mp hfree
    have hnotAll : ¬ ∀ i : Fin 64, (tableGet s.ru.holds i.val).isSome = true := fun hall => by simpa [hnone] using hall ⟨i, hlt⟩
    rw [if_neg hnotAll]
    refine ⟨?_, rfl, i, rfl, hlt, hnone, hlower⟩
    simp only [Placement.holdFields, decide_eq_true_eq]

theorem ofCaptions_iff (k : IncidentKind) : k.ofCaptions = true ↔ k = .subtitleGap ∨ k = .carriageLost ∨ k = .deadAir := by
  cases k <;> decide

theorem segmentAt_eq_some {table : List (Nat × Segment)} {h : Handle} {e : Segment} :
    segmentAt table h = some e ↔ tableGet table h.index = some e ∧ e.openTick = h.openTick := by
  unfold segmentAt
  cases tableGet table h.index with
  | none => simp
  | some x =>
    by_cases hx : x.openTick = h.openTick
    · simp only [if_pos hx, Option.some.injEq]
      exact ⟨fun he => ⟨he, he ▸ hx⟩, And.left⟩
    · simp only [if_neg hx, Option.some.injEq]
      exact ⟨fun he => (by cases he), fun ⟨he, hopen⟩ => absurd (he ▸ hopen) hx⟩

/-- A record is marked SCHEDULE_UNCONFIRMED as its report says, or as its segment stands when a report of the captions is taken (R111). -/
theorem raisedUnconfirmed_iff (table : List (Nat × Segment)) : raisedUnconfirmed table r = true ↔
    (if r.kind = .subtitleGap ∨ r.kind = .carriageLost ∨ r.kind = .deadAir then
      ∃ h e, r.handle = some h ∧ tableGet table h.index = some e ∧ e.openTick = h.openTick ∧ e.flags.scheduleUnconfirmed = true
     else r.unconfirmed = true) := by
  by_cases hk : r.kind = .subtitleGap ∨ r.kind = .carriageLost ∨ r.kind = .deadAir
  · rw [raisedUnconfirmed, if_pos ((ofCaptions_iff _).mpr hk), if_pos hk]
    cases hbind : r.handle.bind (segmentAt table) with
    | none =>
      refine ⟨fun hu => (by cases hu), fun ⟨h, e, hh, hget, hopen, _⟩ => ?_⟩
      rw [hh, Option.bind_some, segmentAt_eq_some.mpr ⟨hget, hopen⟩] at hbind
      cases hbind
    | some e =>
      obtain ⟨h, hh, hseg⟩ := Option.bind_eq_some_iff.mp hbind
      obtain ⟨hget, hopen⟩ := segmentAt_eq_some.mp hseg
      refine ⟨fun hu => ⟨h, e, hh, hget, hopen, hu⟩, fun ⟨g, d, hg, hd, _, hu⟩ => ?_⟩
      obtain rfl := Option.some.inj (hh.symm.trans hg)
      obtain rfl := Option.some.inj (hget.symm.trans hd)
      exact hu
  · rw [raisedUnconfirmed, if_neg (fun h => hk ((ofCaptions_iff _).mp h)), if_neg hk]

end raised

/-! ## The record that a full log discards (R112) -/

/-- The first record of an ordered log that meets a condition has the smallest serial of those that do. -/
theorem find_oldest {log : List Incident} (hlog : log.Pairwise (fun a b => a.serial < b.serial)) {c : Incident → Bool} {y q : Incident}
    (hy : log.find? c = some y) (hq : q ∈ log) (hc : c q = true) : y.serial ≤ q.serial := by
  obtain ⟨-, xs, ys, rfl, hbefore⟩ := List.find?_eq_some_iff_append.mp hy
  obtain ⟨-, htail, -⟩ := List.pairwise_append.mp hlog
  rcases List.mem_append.mp hq with hq | hq
  · have := hbefore q hq
    simp [hc] at this
  · rcases List.mem_cons.mp hq with rfl | hq
    · exact Nat.le_refl _
    · exact Nat.le_of_lt ((List.pairwise_cons.mp htail).1 q hq)

/-- The oldest REVIEWED record goes, and the oldest of all when none is reviewed (R112). -/
theorem discardChoice_oldest {log : List Incident} (hlog : log.Pairwise (fun a b => a.serial < b.serial)) {y : Incident}
    (hy : discardChoice log = some y) :
    (y.reviewed = true → ∀ q ∈ log, q.reviewed = true → y.serial ≤ q.serial) ∧
      (y.reviewed = false → ∀ q ∈ log, q.reviewed = false ∧ y.serial ≤ q.serial) := by
  unfold discardChoice at hy
  split at hy
  · rename_i hfind
    cases hy
    have hrev := List.find?_some hfind
    exact ⟨fun _ q hq hc => find_oldest hlog hfind hq hc, fun hopen => absurd (hrev.symm.trans hopen) (by decide)⟩
  · rename_i hnone
    have hopen : ∀ q ∈ log, q.reviewed = false := fun q hq => by simpa using List.find?_eq_none.mp hnone q hq
    refine ⟨fun hrev => absurd hrev (by simp [hopen y (List.mem_of_mem_head? hy)]), fun _ q hq => ⟨hopen q hq, ?_⟩⟩
    obtain ⟨ys, rfl⟩ := List.head?_eq_some_iff.mp hy
    rcases List.mem_cons.mp hq with rfl | hq
    · exact Nat.le_refl _
    · exact Nat.le_of_lt ((List.pairwise_cons.mp hlog).1 q hq)

/-! ## The command -/

section command

variable {s : State} {a b : List Report} {r : Report} {p : PolicyEntry}

/-- The state with other reports waiting. -/
def withReports (s : State) (rs : List Report) : State := s.withIu { s.iu with reports := rs }

/-- The report in its place is taken out of those that wait (R102). -/
theorem exec_incidentReport (h : s.iu.reports = a ++ r :: b) :
    exec (.incidentReport a.length) s = .next ((withReports s (a ++ b)).handleReport r) := by
  have hget : s.iu.reports[a.length]? = some r := by simp [h]
  have herase : s.iu.reports.eraseIdx a.length = a ++ b := by
    rw [h, List.eraseIdx_append_of_length_le (Nat.le_refl _), Nat.sub_self]
    rfl
  have harm : exec (.incidentReport a.length) s = execIncidentReport a.length s := rfl
  rw [harm, execIncidentReport, hget, herase]
  rfl

theorem exec_incidentReport_muted (h : s.iu.reports = a ++ r :: b) (hp : s.iu.policy[r.kind.place]? = some p) (hm : p.mode = .muted) :
    exec (.incidentReport a.length) s = .next { s with iu := { s.iu with reports := a ++ b } } := by
  have hpolicy : (withReports s (a ++ b)).iu.policyOf r.kind = p := policyOf_eq hp
  rw [exec_incidentReport h]
  simp only [State.handleReport, hpolicy, hm]
  rfl

theorem exec_incidentReport_raised (h : s.iu.reports = a ++ r :: b) (hp : s.iu.policy[r.kind.place]? = some p) (hm : p.mode ≠ .muted)
    {u : State} (hu : (withReports s (a ++ b)).makeRoom = u) :
    exec (.incidentReport a.length) s = .next ((u.withRu (raisedRu u p r)).appendIncident (raisedRecord u p r)) := by
  have hpolicy : (withReports s (a ++ b)).iu.policyOf r.kind = p := policyOf_eq hp
  rw [exec_incidentReport h, ← hu, ← raiseIncident_eq]
  simp only [State.handleReport, hpolicy]

theorem attention_eq (hm : p.mode ≠ .muted) : p.mode.attention = if p.mode = .fault then .incident else .warning := by
  cases hmode : p.mode with
  | fault => rfl
  | warn => rfl
  | muted => exact absurd hmode hm

/-- A hold that was discarded is not in the table after the new record's hold was placed. -/
theorem raisedRu_get_ne {i : Nat} {h : Hold} (hfree : tableGet s.ru.holds i = none) (ho : h.owner ≠ .incident s.iu.nextSerial) :
    tableGet (raisedRu s p r).holds i ≠ some h := by
  have hnone : tableGet s.ru.holds i ≠ some h := by simp [hfree]
  cases hauto : p.autoHold with
  | false => rwa [(raised_unasked hauto).1]
  | true =>
    cases hi : (raisedFields s p r).index with
    | none => rwa [(raised_refused hauto hi).1]
    | some j =>
      obtain ⟨-, hold, hru, -, -, howner, -⟩ := raised_placed hauto hi
      rw [hru, tableGet_put]
      split
      · exact fun he => ho (Option.some.inj he ▸ howner)
      · exact hnone

end command

/-- Settles O42: a muted report, one that finds room, and one that finds the log full. -/
theorem reportsAreDroppedOrRaised : Obligations.ReportsAreDroppedOrRaised := by
  unfold Obligations.ReportsAreDroppedOrRaised
  intro s a b r p hreports hp
  refine ⟨exec_incidentReport_muted hreports hp, fun hm hroom => ?room, fun hm hlen ⟨hlog, _, hnext, _⟩ => ?full⟩
  case room =>
    refine ⟨_, raisedRecord (withReports s (a ++ b)) p r, exec_incidentReport_raised hreports hp hm (makeRoom_of_room hroom), ?_,
      rfl, rfl, rfl, rfl, rfl, rfl, rfl, rfl, rfl, rfl, rfl, rfl, rfl, raisedUnconfirmed_iff s.sg.table,
      fun first last floor hauto hfirst hlast hle hhorizon hfloor => ?_, fun hauto => ?_, raised_refused,
      fun hauto i => raised_placed (s := withReports s (a ++ b)) hauto⟩
    · rw [← attention_eq hm]
      rfl
    · exact raised_outcome (s := withReports s (a ++ b)) hauto hfirst hlast (by omega) hhorizon
        (hfloor.trans (retentionFloor_eq s).symm)
    · obtain ⟨hru, hfields⟩ := raised_unasked (s := withReports s (a ++ b)) (r := r) hauto
      exact ⟨hru, congrArg HoldFields.outcome hfields, congrArg HoldFields.index hfields, congrArg HoldFields.unheld hfields⟩
  case full =>
    obtain ⟨y, hy, hchoice, hmake⟩ := makeRoom_of_full (s := withReports s (a ++ b)) hlen
    obtain ⟨hreviewed, hopen⟩ := discardChoice_oldest hlog hchoice
    have hreleased : ∀ i h, y.holdIndex = some i → tableGet s.ru.holds i = some h → h.owner = .incident y.serial →
        s.ru.afterDiscard y = { s.ru with holds := tableErase s.ru.holds i } := fun i h hi hget ho => by
      simp only [Ru.afterDiscard, hi, releaseOwned_own hget ho]
    refine ⟨_, y, _, exec_incidentReport_raised hreports hp hm hmake, hy, rfl, rfl, fun hauto hi => ?_,
      fun i h hi hget ho => ⟨raisedRu_get_ne ?_ ?_, fun hauto => ?_⟩,
      fun hrev => ⟨if_pos hrev, hreviewed hrev⟩, fun hrev => ⟨if_neg (by simp [hrev]), hopen hrev⟩⟩
    · refine (raised_unasked hauto).1.trans ?_
      simp only [Ru.afterDiscard, hi]
      rfl
    · show tableGet (s.ru.afterDiscard y).holds i = none
      rw [hreleased i h hi hget ho, tableGet_erase, if_pos rfl]
    · intro hne
      exact Nat.ne_of_lt (hnext y hy) (Owner.incident.inj (ho.symm.trans hne))
    · exact (raised_unasked hauto).1.trans (hreleased i h hi hget ho)

end Sys2Proof.Proofs.Incidents
end

section

namespace Sys2Proof.Proofs.Incidents

open Sys2Proof Sys2Proof.Machine

/-!
# ARCHIVE_RESET (R120, R136, R154, R163, R186)

With no hold left the endings of the jobs touch the Export Unit and the links' flags alone; what they come to is one state.
-/

/-! ## The jobs (R186, R187) -/

/-- The job that finishes its record, marked ENDING. -/
def keptJobs : List Job → List Job
  | [] => []
  | j :: _ => if j.finishes then [{ j with phase := .ending }] else []

/-- The jobs that end ABORTED, in queue order. -/
def abortedJobs : List Job → List Job
  | [] => []
  | j :: rest => if j.finishes then rest else j :: rest

/-- The ending of a job that is aborted (R187). -/
def abortedEnding (j : Job) : Ending := ⟨j.number, .aborted, j.sent, j.damaged, j.unavailable, j.absent⟩

/-- The links' last endings after jobs ended ABORTED one after the other. -/
def endingsAfter (js : List Job) (e : Tri (Option Ending)) : Tri (Option Ending) :=
  js.foldl (fun x j => x.set j.link (some (abortedEnding j))) e

/-- The Link Interface with EXPORT flagged for every job of a list on its link. -/
def flagExports (js : List Job) (li : Li) : Li := js.foldl (fun x j => x.raiseOn j.link .exports) li

/-- The jobs of a queue whose numbers no job of a list has. -/
def jobsWithout (js jobs : List Job) : List Job := jobs.filter (fun x => js.all (fun j => decide (x.number ≠ j.number)))

theorem abortAll_eq {s : State} (hholds : s.ru.holds = []) (js : List Job) :
    s.abortAll js = { s with
      xu := { s.xu with jobs := jobsWithout js s.xu.jobs, endings := endingsAfter js s.xu.endings }
      li := flagExports js s.li } := by
  induction js generalizing s with
  | nil =>
    have hjobs : jobsWithout [] s.xu.jobs = s.xu.jobs := List.filter_true _
    rw [hjobs]
    rfl
  | cons j js ih =>
    have hru : s.ru.releaseOwned j.pin (.job j.number) = s.ru := releaseOwned_other fun h hget => by simp [hholds] at hget
    have hone := State.endJob_eq s j .aborted
    rw [hru] at hone
    have hjobs : jobsWithout js (s.xu.jobs.filter (fun x => decide (x.number ≠ j.number))) = jobsWithout (j :: js) s.xu.jobs := by
      simp only [jobsWithout, List.filter_filter, List.all_cons, Bool.and_comm]
    calc s.abortAll (j :: js) = (s.endJob j .aborted).abortAll js := rfl
      _ = _ := ih (s := s.endJob j .aborted) (by rw [hone, hholds])
      _ = _ := by
        simp only [hone, hjobs]
        rfl

theorem jobsWithout_self (js : List Job) : jobsWithout js js = [] :=
  List.filter_eq_nil_iff.mpr fun x hx hall => by simpa using List.all_eq_true.mp hall x hx

theorem jobsWithout_cons_self (k : Job) (js : List Job) : jobsWithout js (k :: js) = jobsWithout js [k] := by
  have happend : jobsWithout js (k :: js) = jobsWithout js [k] ++ jobsWithout js js := List.filter_append (l₁ := [k]) js
  rw [happend, jobsWithout_self, List.append_nil]

/-- The jobs as ARCHIVE_RESET leaves them when no hold is left (R186). -/
theorem resetExports_eq {s : State} (hholds : s.ru.holds = []) :
    s.resetExports = { s with
      xu := { s.xu with
        jobs := jobsWithout (abortedJobs s.xu.jobs) (keptJobs s.xu.jobs)
        endings := endingsAfter (abortedJobs s.xu.jobs) s.xu.endings }
      li := flagExports (abortedJobs s.xu.jobs) s.li } := by
  cases hjobs : s.xu.jobs with
  | nil =>
    simp only [State.resetExports, hjobs]
    have hxu : { s.xu with jobs := [] } = s.xu := by rw [← hjobs]
    exact congrArg s.withXu hxu.symm
  | cons j rest =>
    by_cases hf : j.finishes = true
    · simp only [State.resetExports, hjobs, keptJobs, abortedJobs, if_pos hf]
      rw [abortAll_eq (s := s.withXu { s.xu with jobs := { j with phase := .ending } :: rest }) hholds, State.withXu_xu,
        jobsWithout_cons_self]
      rfl
    · simp only [State.resetExports, hjobs, keptJobs, abortedJobs, if_neg hf]
      rw [abortAll_eq hholds, hjobs, jobsWithout_self]
      rfl

theorem keptJobs_length_le (jobs : List Job) : (keptJobs jobs).length ≤ 1 := by
  cases jobs with
  | nil => exact Nat.zero_le _
  | cons j rest =>
    simp only [keptJobs]
    split
    · exact Nat.le_refl 1
    · exact Nat.zero_le 1

theorem keptJobs_ending {jobs : List Job} {j : Job} (h : j ∈ keptJobs jobs) : j.phase = .ending := by
  cases jobs with
  | nil => cases h
  | cons k rest =>
    simp only [keptJobs] at h
    split at h
    · rw [List.mem_singleton.mp h]
    · cases h

theorem finishes_iff (j : Job) : j.finishes = true ↔ j.phase = .sending ∨ j.phase = .ending := by
  unfold Job.finishes
  cases j.phase <;> decide

/-- Where job numbers tell jobs apart, the job that finishes stays (R186). -/
theorem jobsWithout_kept {jobs : List Job} (hnodup : (jobs.map (·.number)).Nodup) :
    jobsWithout (abortedJobs jobs) (keptJobs jobs) = keptJobs jobs := by
  refine List.filter_eq_self.mpr fun x hx => List.all_eq_true.mpr fun k hk => ?_
  cases jobs with
  | nil => cases hx
  | cons j rest =>
    simp only [keptJobs, abortedJobs] at hx hk
    split at hx
    · rename_i hf
      rw [if_pos hf] at hk
      rw [List.mem_singleton.mp hx]
      obtain ⟨hnot, -⟩ := List.nodup_cons.mp hnodup
      exact decide_eq_true fun he => hnot (List.mem_map.mpr ⟨k, hk, he.symm⟩)
    · cases hx

/-- A link's last ending is that of its last job that was aborted (R187). -/
theorem endingsAfter_get (js : List Job) (e : Tri (Option Ending)) (m : Link) :
    (endingsAfter js e).get m = match (js.filter (fun j => decide (j.link = m))).getLast? with
      | some j => some (abortedEnding j)
      | none => e.get m := by
  induction js using List.reverseRecOn with
  | nil => rfl
  | append_singleton js j ih =>
    have hlast : endingsAfter (js ++ [j]) e = (endingsAfter js e).set j.link (some (abortedEnding j)) := by
      simp only [endingsAfter, List.foldl_append, List.foldl_cons, List.foldl_nil]
    rw [hlast, Tri.get_set]
    by_cases hm : m = j.link
    · simp [hm]
    · rw [if_neg hm, ih]
      simp [Ne.symm hm]

/-! ## The links' flags (R187, R199) -/

theorem flagExports_replies (js : List Job) (li : Li) : (flagExports js li).replies = li.replies := by
  induction js generalizing li with
  | nil => rfl
  | cons j js ih => exact ih (li.raiseOn j.link .exports)

/-- EXPORT is flagged on the links whose jobs ended, and nothing else of a link changes. -/
theorem flagExports_get (js : List Job) (li : Li) (m : Link) : (flagExports js li).links.get m = { li.links.get m with
    flags := { (li.links.get m).flags with
      exports := (li.links.get m).flags.exports || js.any (fun j => decide (j.link = m)) } } := by
  induction js generalizing li with
  | nil => simp [flagExports]
  | cons j js ih =>
    have hfirst : flagExports (j :: js) li = flagExports js (li.raiseOn j.link .exports) := rfl
    rw [hfirst, ih, Li.raiseOn_get]
    by_cases hm : m = j.link
    · simp [hm, Classes.put]
    · simp [hm, Ne.symm hm]

theorem await_flags (li : Li) (l m : Link) (k : Byte) : ((li.await l k).links.get m).flags = (li.links.get m).flags := by
  simp only [Li.await, Tri.get_update]
  split <;> rfl

/-! ## The archive and the incidents -/

theorem healthyGroups_archiveReset (ac : Ac) : ac.archiveReset.healthyGroups = 0 := by
  have hnone : ac.bank.filter (fun g => decide ((ac.resetGroups.get g).state = .healthy)) = [] :=
    List.filter_eq_nil_iff.mpr fun g hg => by simp [Ac.resetGroups, Ac.untested, hg]
  exact congrArg List.length hnone

theorem resetGroups_get (ac : Ac) (g : Group) : ac.resetGroups.get g = { ac.groups.get g with
    state := if g ∈ ac.bank then .untested else (ac.groups.get g).state, faultMark := false } := by
  simp only [Ac.resetGroups, Ac.untested, Quad.get_map, Quad.get_tab]
  split <;> rfl

/-! ## The command -/

/-- The part after an accepted ARCHIVE_RESET, but for the links. -/
def archiveReset (s : State) : State := { s with
  ac := s.ac.archiveReset
  ru := { s.ru with holds := [], healthyPages := 0, quota := 0 }
  rc := s.rc.archiveReset
  iu := s.iu.archiveReset
  xu := { s.xu with
    jobs := jobsWithout (abortedJobs s.xu.jobs) (keptJobs s.xu.jobs)
    endings := endingsAfter (abortedJobs s.xu.jobs) s.xu.endings } }

/-- Its reply (R163). -/
def archiveResetReply (s : State) : Reply :=
  ⟨.ok, [.byte s.ac.state.place, .word s.rc.spans.length, .word s.ru.holds.length, .word s.xu.jobs.length]⟩

section command

variable {l : Link} {s : State} (hstall : s.xu.stallDue = false)

include hstall

theorem exec_archiveReset_unmapped (h : s.mayAsk l 46) (hstate : s.ac.state = .unmapped) :
    exec (.archiveReset l (.fits ())) s = .next { s with li := s.li.passed l 46 ⟨.wrongState, []⟩ } := by
  refine congrArg Host.Outcome.next (Loudness.passRequest_of_read h fun li => ?_)
  simp only [archiveResetTaken, State.stallFirst_withLi li hstall, State.withLi_ac, if_pos hstate, refuse]

theorem archiveResetTaken_mapped (hstate : s.ac.state ≠ .unmapped) (li : Li) :
    archiveResetTaken () (s.withLi li) =
      ((archiveReset s).withLi ((flagExports (abortedJobs s.xu.jobs) li).raiseAll .archive), archiveResetReply s) := by
  simp only [archiveResetTaken, State.stallFirst_withLi li hstall, State.withLi_ac, if_neg hstate]
  rw [resetExports_eq rfl, State.regroup_eq, healthyGroups_archiveReset]
  rfl

theorem exec_archiveReset (h : s.mayAsk l 46) (hstate : s.ac.state ≠ .unmapped) :
    exec (.archiveReset l (.fits ())) s = .next (((archiveReset s).withLi
      ((flagExports (abortedJobs s.xu.jobs) (s.li.await l 46)).raiseAll .archive)).sendReply l s.li.nextRequest (archiveResetReply s)) := by
  refine congrArg Host.Outcome.next ((passRequest_fits () archiveResetTaken h).trans ?_)
  rw [archiveResetTaken_mapped hstall hstate]
  rfl

end command

/-- Which jobs are kept and which end, as the head of the queue decides (R186). -/
theorem keptJobs_abortedJobs_eq {jobs kept aborted : List Job} (hnil : jobs = [] → kept = [] ∧ aborted = [])
    (hfinishes : ∀ j rest, jobs = j :: rest → j.phase = .sending ∨ j.phase = .ending →
      kept = [{ j with phase := .ending }] ∧ aborted = rest)
    (hends : ∀ j rest, jobs = j :: rest → j.phase ≠ .sending → j.phase ≠ .ending → kept = [] ∧ aborted = j :: rest) :
    kept = keptJobs jobs ∧ aborted = abortedJobs jobs := by
  cases jobs with
  | nil => exact hnil rfl
  | cons j rest =>
    by_cases hf : j.finishes = true
    · simp only [keptJobs, abortedJobs, if_pos hf]
      exact hfinishes j rest rfl ((finishes_iff j).mp hf)
    · simp only [keptJobs, abortedJobs, if_neg hf]
      obtain ⟨hsending, hending⟩ := not_or.mp (mt (finishes_iff j).mpr hf)
      exact hends j rest rfl hsending hending

/-- Settles O52: the state after the command is `archiveReset`, with ARCHIVE flagged on every link and EXPORT where jobs ended. -/
theorem archiveResetEmptiesTheArchive : Obligations.ArchiveResetEmptiesTheArchive := by
  unfold Obligations.ArchiveResetEmptiesTheArchive
  intro l s h hstall
  refine ⟨exec_archiveReset_unmapped hstall h, fun hstate => ⟨_, exec_archiveReset hstall h hstate, ?count, ?ending, rfl, rfl, rfl, rfl, rfl,
    rfl, rfl, rfl, rfl, rfl, rfl, rfl, resetGroups_get s.ac, rfl, rfl, rfl, rfl, rfl, rfl, rfl, rfl, rfl, ?noJobs, ?archive, ?replies,
    fun kept aborted hnodup hnil hfinishes hends => ?jobs⟩⟩
  case count => exact (List.length_filter_le _ _).trans (keptJobs_length_le s.xu.jobs)
  case ending => exact fun j hj => keptJobs_ending (List.mem_of_mem_filter hj)
  case noJobs =>
    intro hjobs
    rw [hjobs]
    refine ⟨?_, by rw [archiveResetReply, hjobs]; rfl⟩
    have hxu : { s.xu with jobs := [] } = s.xu := by rw [← hjobs]
    simp only [archiveReset, hjobs]
    exact hxu
  case archive =>
    intro m
    exact congrArg (·.flags.archive) (Li.raiseAll_get (flagExports (abortedJobs s.xu.jobs) (s.li.await l 46)) .archive m)
  case replies => exact congrArg (· ++ _) (flagExports_replies (abortedJobs s.xu.jobs) (s.li.await l 46))
  case jobs =>
    obtain ⟨rfl, rfl⟩ := keptJobs_abortedJobs_eq hnil hfinishes hends
    refine ⟨congrArg (fun jobs => { s.xu with jobs := jobs, endings := endingsAfter (abortedJobs s.xu.jobs) s.xu.endings })
      (jobsWithout_kept hnodup), fun m => ⟨?_, ?_⟩⟩
    · refine (endingsAfter_get (abortedJobs s.xu.jobs) s.xu.endings m).trans ?_
      cases ((abortedJobs s.xu.jobs).filter (fun j => decide (j.link = m))).getLast? <;> rfl
    · refine (Li.raiseAll_get (flagExports (abortedJobs s.xu.jobs) (s.li.await l 46)) .archive m).trans ?_
      rw [flagExports_get, await_flags]
      rfl

end Sys2Proof.Proofs.Incidents
end

section

namespace Sys2Proof.Proofs.Retention

open Sys2Proof Sys2Proof.Machine

/-!
# What the quota and the canonical form of the memory rest on (R123, R157)

The bookkeeping of the archive reads the memory, the Bank Map, the group states and the two figures that the Retention Unit draws from them:
`books` is that part of the state. Most operations leave all of it; one lemma for each operation that several commands share. The others write
words into the memory, or set group states and draw the figures afresh in one step (`State.regroup`).
-/

/-- The part of the state that the bookkeeping of the archive reads. -/
structure Books where
  dram : List (Nat × BitVec 73)
  bank : List Group
  states : Group → GroupState
  healthyPages : Nat
  quota : Nat

/-- The books of a state. -/
def books (s : State) : Books where
  dram := s.ac.dram
  bank := s.ac.bank
  states g := (s.ac.groups.get g).state
  healthyPages := s.ru.healthyPages
  quota := s.ru.quota

/-- The books are in order: R123 and the canonical form of the memory. -/
structure Books.InOrder (b : Books) : Prop where
  dram : Memory.wf b.dram
  pages : b.healthyPages = 524288 * (b.bank.filter (fun g => b.states g = .healthy)).length
  quota : b.quota = b.healthyPages / 2

theorem archiveBookkeeping_iff {s : State} : archiveBookkeeping s ↔ (books s).InOrder :=
  ⟨fun ⟨hdram, hpages, hquota⟩ => ⟨hdram, hpages, hquota⟩, fun ⟨hdram, hpages, hquota⟩ => ⟨hdram, hpages, hquota⟩⟩

section blocks

variable {s t : State}

theorem bookkeeping_of_books (hs : archiveBookkeeping s) (h : books t = books s) : archiveBookkeeping t := by
  rw [archiveBookkeeping_iff] at hs ⊢
  rwa [h]

/-- The books but for the memory, which stays in its canonical form. -/
theorem bookkeeping_of_dram {d : List (Nat × BitVec 73)} (hs : archiveBookkeeping s) (hd : Memory.wf d)
    (h : books t = { books s with dram := d }) : archiveBookkeeping t := by
  obtain ⟨-, hpages, hquota⟩ := archiveBookkeeping_iff.mp hs
  rw [archiveBookkeeping_iff, h]
  exact ⟨hd, hpages, hquota⟩

/-- New group states come with the figures drawn from them (R123). -/
theorem bookkeeping_regroup {ac : Ac} (hd : Memory.wf ac.dram) : archiveBookkeeping (s.regroup ac) := ⟨hd, rfl, rfl⟩

/-- The books show of the Archive Controller the memory, the Bank Map and the group states. -/
theorem books_withAc {ac : Ac} (hd : ac.dram = s.ac.dram) (hb : ac.bank = s.ac.bank)
    (hg : ∀ g, (ac.groups.get g).state = (s.ac.groups.get g).state) : books (s.withAc ac) = books s := by
  simp only [books, State.withAc_ac, State.withAc_ru, hd, hb, hg]

/-- The books show of the Retention Unit the two figures. -/
theorem books_withRu {ru : Ru} (hp : ru.healthyPages = s.ru.healthyPages) (hq : ru.quota = s.ru.quota) : books (s.withRu ru) = books s := by
  simp only [books, State.withRu_ac, State.withRu_ru, hp, hq]

theorem books_withSu (s : State) (x : Su) : books (s.withSu x) = books s := rfl

theorem books_withRc (s : State) (x : Rc) : books (s.withRc x) = books s := rfl

theorem books_withXu (s : State) (x : Xu) : books (s.withXu x) = books s := rfl

/-- A release by owner leaves the figures (R130). -/
theorem books_releaseOwned (i : Nat) (o : Owner) : books (s.withRu (s.ru.releaseOwned i o)) = books s := by
  obtain ⟨-, hpages, hquota⟩ := Ru.releaseOwned_rest s.ru i o
  exact books_withRu hpages hquota

/-- A placement leaves the figures (R122, R127). -/
theorem books_take (p : Placement) : books (s.withRu (s.ru.take p)) = books s := by
  cases p <;> rfl

end blocks

/-! ## Requests and frames -/

section requests

variable {α : Type} {k : Nat} {l : Link} {p : Payload α} {s t : State} {body : α → State → State × Reply}

theorem books_received (h : books t = books s) : books (s.received t) = books s := by
  unfold State.received
  split
  · rfl
  · exact h

/-- What rests on the books alone and is kept by the block that takes a request is kept by the request's command. -/
theorem passRequest_keeps {P : State → Prop} (hP : ∀ {x y : State}, P x → books y = books x → P y)
    (hbody : ∀ a x, P x → P (body a x).1) (hs : P s) : P (passRequest k l p s body) := by
  have answered : ∀ r, P (s.withLi (s.li.answer l (BitVec.ofNat 8 k) r)) := fun r => hP hs rfl
  unfold passRequest State.received
  split
  · exact hs
  · split
    · cases p with
      | wrongLength => exact answered _
      | fits a =>
        exact hP (hbody a (s.withLi (s.li.await l (BitVec.ofNat 8 k))) (hP hs rfl)) rfl
    · exact answered _

theorem books_passRequest (hbody : ∀ a x, books (body a x).1 = books x) : books (passRequest k l p s body) = books s :=
  passRequest_keeps (P := fun x => books x = books s) (fun h g => g.trans h) (fun a x h => (hbody a x).trans h) rfl

theorem books_answerRequest (hbody : ∀ a x, books (body a x).1 = books x) : books (answerRequest k l p s body) = books s := by
  unfold answerRequest
  apply books_received
  split
  · cases p with
    | wrongLength => rfl
    | fits a => exact hbody a s
  · rfl

end requests

/-! ## The Recorder -/

section recorder

variable (s : State)

theorem books_unrecorded (c : Nat) : books (s.unrecorded c) = books s := by
  rw [(State.unrecorded_frame s c).2]
  rfl

theorem books_writeStep (w : PageWrite) (p : Nat) (g : Group) : books (writeStep s w p g) = books s := by
  unfold writeStep
  simp only
  split
  · rfl
  · exact books_unrecorded _ _

theorem books_grantWrite (w : PageWrite) : books (grantWrite s w) = books s := by
  unfold grantWrite
  split
  · exact books_unrecorded s _
  · split
    · exact books_unrecorded s _
    · exact books_writeStep s _ _ _

theorem books_writeTimedOut (w : PageWrite) : books (s.writeTimedOut w) = books s := by
  unfold State.writeTimedOut
  split
  · exact books_unrecorded s _
  · rfl

theorem books_requestWrite (c : Nat) : books (s.requestWrite c) = books s := by
  unfold State.requestWrite
  split <;> rfl

end recorder

/-! ## The Archive Controller -/

section archive

variable (s : State)

/-- A read's notes leave the group states (R169, R170). -/
theorem books_noteRead (g : Group) (page : Nat) (who : Requester) (ns : List Note) :
    books (s.withAc (s.ac.noteRead g page who ns)) = books s := by
  obtain ⟨gs, c, h, hstate, -⟩ := Ac.noteRead_frame s.ac g page who ns
  rw [h]
  exact books_withAc rfl rfl hstate

theorem books_noteDamage (p : Nat) (ns : List Note) : books (s.noteDamage p ns) = books s := by
  obtain ⟨d, rs, h, -⟩ := State.noteDamage_frame s p ns
  rw [h]
  rfl

/-- A fault mark is no group state (R160). -/
theorem books_markFault (g : Group) : books (s.withAc (s.ac.markFault g)) = books s := by
  refine books_withAc rfl rfl fun h => ?_
  rw [Ac.markFault, Quad.get_update]
  split <;> rfl

theorem books_scrubChoice : books s.scrubChoice = books s := by
  unfold State.scrubChoice
  split
  · split <;> rfl
  · rfl

theorem books_grantScrub (r : ReadRequest) : books (grantScrub s r) = books s := by
  unfold grantScrub
  simp only
  split
  · split <;> rfl
  · rfl

theorem books_archiveRecordTaken (u : Unit) : books (archiveRecordTaken u s).1 = books s := by
  unfold archiveRecordTaken
  split <;> rfl

theorem books_spareLaneTaken (a : SpareLaneSetArgs) : books (spareLaneTaken a s).1 = books s := by
  unfold spareLaneTaken
  split
  · split
    · rfl
    · split <;> rfl
  · rfl

theorem books_archiveReadTaken (a : ArchiveReadArgs) : books (archiveReadTaken a s).1 = books s := by
  unfold archiveReadTaken
  split <;> rfl

end archive

/-! ## Feeds, Level Meter and Caption Checker -/

section feeds

variable (s : State)

theorem books_takePacket (f : Feed) (p : Packet) : books (takePacket s f p) = books s := by
  unfold takePacket
  split <;> rfl

theorem books_closeRecords (c : Nat) : books (s.closeRecords c) = books s := by
  unfold State.closeRecords
  split <;> rfl

theorem books_captionsAtClose (c : Nat) : books (s.captionsAtClose c) = books s := rfl

theorem books_openTick : books s.openTick = books s := rfl

theorem books_feedSetTaken (a : FeedSetArgs) : books (feedSetTaken a s).1 = books s := by
  unfold feedSetTaken
  split <;> rfl

theorem books_meterTaken (b : Byte) : books (meterTaken b s).1 = books s := by
  unfold meterTaken
  split <;> rfl

end feeds

/-! ## The Segment Unit -/

section segments

variable (s : State)

theorem books_segmentReadTaken (a : SegmentReadArgs) : books (segmentReadTaken a s).1 = books s := by
  unfold segmentReadTaken
  split
  · rfl
  · split
    · rfl
    · split <;> rfl

theorem books_segmentListTaken (a : SegmentListArgs) : books (segmentListTaken a s).1 = books s := by
  unfold segmentListTaken
  simp only
  split
  · rfl
  · split <;> rfl

theorem books_limitsWriteTaken (a : LimitsWriteArgs) : books (limitsWriteTaken a s).1 = books s := by
  unfold limitsWriteTaken
  split <;> rfl

theorem books_limitsReadTaken (b : Byte) : books (limitsReadTaken b s).1 = books s := by
  unfold limitsReadTaken
  split <;> rfl

theorem books_judgeRecords (t : Nat) (es : List (Nat × Segment)) : books (es.foldl (fun x e => x.judgeRecord t e) s) = books s := by
  rw [Segments.judgeRecords_eq]
  rfl

theorem books_settlement {s t : State} {f : Feed} (h : execSettlement f s = .next t) : books t = books s := by
  unfold execSettlement at h
  split at h
  · cases h
    rfl
  · split at h
    · split at h
      · rename_i hset
        cases h
        have hbooks := congrArg books (Incidents.outside_settleTick hset)
        exact hbooks
      · cases h
    · cases h
      rfl

end segments

/-! ## The Schedule Unit -/

section schedule

variable (s : State) (l : Link)

theorem books_lapseFirst : books s.lapseFirst = books s := by
  rcases Schedule.lapseFirst_cases s with h | h <;> rw [h]
  rfl

theorem books_claimTaken (u : Unit) : books (claimTaken l u s).1 = books s := by
  unfold claimTaken
  simp only
  split <;> exact books_lapseFirst s

theorem books_yieldTaken (u : Unit) : books (yieldTaken l u s).1 = books s := by
  rcases Schedule.yieldTaken_cases s l u with h | h <;> rw [h] <;> exact books_lapseFirst s

theorem books_timeSyncTaken (b : BitVec 32) : books (timeSyncTaken l b s).1 = books s := by
  rcases Schedule.timeSyncTaken_cases s l b with h | ⟨a, h⟩ | ⟨c, o, h⟩ <;> rw [h] <;> exact books_lapseFirst s

theorem books_placeAnnouncement (x : Announcement) (r : Int) : books (placeAnnouncement s x r).1 = books s := by
  unfold placeAnnouncement
  simp only
  split
  · rfl
  · split
    · rfl
    · simp only
      split <;> rfl

theorem books_announceTaken (a : AnnounceArgs) : books (announceTaken l a s).1 = books s := by
  unfold announceTaken
  simp only
  split
  · exact books_lapseFirst s
  · split
    · exact books_lapseFirst s
    · exact books_lapseFirst s
    · rw [books_placeAnnouncement, books_lapseFirst]

theorem books_withdrawTaken (a : WithdrawArgs) : books (withdrawTaken l a s).1 = books s := by
  rcases Schedule.withdrawTaken_cases s l a with h | ⟨mask, n, k, h⟩ <;> rw [h] <;> exact books_lapseFirst s

theorem books_handOverAt (c : Nat) : books (s.handOverAt c) = books s := by
  unfold State.handOverAt
  split <;> rfl

theorem books_measureRestartTaken (u : Unit) : books (measureRestartTaken u s).1 = books s := by
  unfold measureRestartTaken
  simp only
  split <;> exact books_lapseFirst s

end schedule

/-! ## The Incident Unit and the Retention Unit -/

section incidents

variable (s : State)

theorem books_makeRoom : books s.makeRoom = books s := by
  rcases State.makeRoom_cases s with h | ⟨r, -, -, -, h⟩ <;> rw [h]
  unfold Ru.afterDiscard
  split
  · exact books_releaseOwned _ _
  · rfl

theorem books_handleReport (r : Report) : books (s.handleReport r) = books s := by
  unfold State.handleReport
  simp only
  split
  · rfl
  · rcases State.raiseIncident_cases s (s.iu.policyOf r.kind) r with ⟨x, -, -, -, h⟩ | ⟨x, i, hold, c, -, -, -, -, h⟩ <;> rw [h] <;>
      exact books_makeRoom s

theorem books_policyWriteTaken (a : PolicyWriteArgs) : books (policyWriteTaken a s).1 = books s := by
  unfold policyWriteTaken
  split <;> rfl

theorem books_policyReadTaken (b : Byte) : books (policyReadTaken b s).1 = books s := by
  unfold policyReadTaken
  split <;> rfl

theorem books_incidentFetchTaken (l : Link) (start : Option (BitVec 32)) : books (incidentFetchTaken l start s).1 = books s := by
  unfold incidentFetchTaken
  split
  · rfl
  · split <;> rfl

theorem books_incidentReviewTaken (a : IncidentReviewArgs) : books (incidentReviewTaken a s).1 = books s := by
  unfold incidentReviewTaken
  split
  · rfl
  · split
    · rfl
    · rfl
    · split
      · rfl
      · unfold reviewOpen
        split
        · exact books_releaseOwned _ _
        · rfl

theorem books_holdPlaceTaken (l : Link) (a : HoldPlaceArgs) : books (holdPlaceTaken l a s).1 = books s := by
  unfold holdPlaceTaken
  split
  · rfl
  · exact books_take _

theorem books_holdReleaseTaken (a : HoldReleaseArgs) : books (holdReleaseTaken a s).1 = books s := by
  unfold holdReleaseTaken
  split
  · rfl
  · split
    · rfl
    · split
      · rfl
      · unfold releaseByOwner
        simp only
        split <;> rfl

theorem books_holdListTaken (b : Byte) : books (holdListTaken b s).1 = books s := by
  unfold holdListTaken
  split <;> rfl

end incidents

/-! ## The Export Unit -/

section exports

variable (s : State)

theorem books_lookup (j : Job) : books (s.lookup j) = books s := by
  obtain ⟨x, r, h⟩ := State.lookup_frame s j
  rw [h]
  rfl

theorem books_activate : books s.activate = books s := by
  obtain ⟨x, r, h⟩ := State.activate_frame s
  rw [h]
  rfl

theorem books_endJob (j : Job) (st : EndStatus) : books (s.endJob j st) = books s := by
  rw [State.endJob_eq]
  exact books_releaseOwned _ _

theorem books_endActive (j : Job) (st : EndStatus) : books (s.endActive j st) = books s := by
  obtain ⟨x, r, h⟩ := State.endActive_frame s j st
  rw [h]
  exact books_releaseOwned _ _

theorem books_stallFirst : books s.stallFirst = books s := by
  rcases State.stallFirst_cases s with h | ⟨j, rest, st, -, h⟩ <;> rw [h]
  exact books_endActive s j st

theorem books_recordDone (j : Job) (b : Buffered) (rest : List (Feed × Buffered)) : books (recordDone s j b rest) = books s := by
  unfold recordDone
  simp only
  split
  · exact books_endActive _ _ _
  · split
    · rfl
    · split
      · exact books_endActive _ _ _
      · exact books_lookup _ _

theorem books_strobe (rest : List (BitVec 16)) : books (strobe s rest) = books s := by
  unfold strobe
  simp only
  split
  · rfl
  · split
    · exact books_recordDone _ _ _ _
    · rfl

theorem books_deliver (r : ReadRequest) (rs : List (Nat × WordRead)) : books (s.deliver r rs) = books s := by
  unfold State.deliver
  split
  · rfl
  · split
    · exact books_endActive s _ _
    · rfl

theorem books_grantExport (r : ReadRequest) : books (grantExport s r) = books s := by
  unfold grantExport
  simp only
  split <;> split <;> rfl

theorem books_exportReadDone (x : Access) (r : ReadRequest) (wrong : WrongLanes) : books (exportReadDone s x r wrong) = books s := by
  unfold exportReadDone
  simp only
  split
  · rfl
  · rw [books_deliver, books_noteDamage]
    exact books_noteRead (s.withAc { s.ac with access := none }) _ _ _ _

theorem books_queueJob (j : Job) : books (s.queueJob j) = books s := by
  unfold State.queueJob
  simp only
  split
  · exact books_activate _
  · rfl

theorem books_exportStartTaken (l : Link) (a : ExportStartArgs) : books (exportStartTaken l a s).1 = books s := by
  unfold exportStartTaken
  simp only
  split
  · exact books_stallFirst s
  · split
    · exact books_stallFirst s
    · split
      · unfold pinAndQueue
        split
        · exact books_stallFirst s
        · split
          · exact books_stallFirst s
          · exact books_stallFirst s
          · rw [books_queueJob, books_take, books_stallFirst]
      · exact books_stallFirst s

theorem books_abortActive (j : Job) : books (abortActive s j) = books s := by
  unfold abortActive
  split
  · rfl
  · split
    · rfl
    · rfl
    · split
      · exact books_endActive _ _ _
      · rfl
    · exact books_endActive s _ _
    · exact books_endActive s _ _

theorem books_exportAbortTaken (b : BitVec 32) : books (exportAbortTaken b s).1 = books s := by
  unfold exportAbortTaken
  simp only
  split
  · exact books_stallFirst s
  · split
    · rw [books_abortActive, books_stallFirst]
    · split
      · rw [books_endJob, books_stallFirst]
      · exact books_stallFirst s

theorem books_notePartDamage (x : Access) (ns : List Note) : books (s.notePartDamage x ns) = books s := by
  unfold State.notePartDamage
  split
  · exact books_noteDamage s _ _
  · rfl

theorem books_abortAll (js : List Job) : books (s.abortAll js) = books s := by
  unfold State.abortAll
  induction js generalizing s with
  | nil => rfl
  | cons j js ih => exact (ih _).trans (books_endJob s j .aborted)

theorem books_resetExports : books s.resetExports = books s := by
  unfold State.resetExports
  split
  · rfl
  · split
    · exact books_abortAll _ _
    · exact books_abortAll s _

theorem books_statusTaken (l : Link) (u : Unit) : books (statusTaken l u s).1 = books s :=
  (books_stallFirst s.lapseFirst).trans (books_lapseFirst s)

theorem books_closeTick (xbsy : Bool) : books (closeTick s xbsy) = books s := by
  unfold closeTick
  simp only
  rw [books_withXu, books_scrubChoice, books_withSu, books_handOverAt, books_openTick, books_requestWrite, books_closeRecords,
    books_captionsAtClose, books_stallFirst, books_lapseFirst]

end exports

/-! ## The Link Interface -/

theorem books_attentionSetTaken (s : State) (l : Link) (a : AttentionSetArgs) : books (attentionSetTaken l a s).1 = books s := by
  unfold attentionSetTaken
  split <;> rfl

end Sys2Proof.Proofs.Retention
end

section

namespace Sys2Proof.Proofs.Retention

open Sys2Proof Sys2Proof.Machine

/-!
# The bookkeeping of the archive is kept (R123, R157)

Words that are written go into the memory at their place, and every operation that sets group states ends in `State.regroup`.
-/

section archive

variable {s : State}

/-! ## Words written -/

/-- An access that wrote words has ended (R146, R160). -/
theorem bookkeeping_wrote (g : Group) (page n : Nat) (data : List (BitVec 64)) (hs : archiveBookkeeping s) :
    archiveBookkeeping (s.withAc { s.ac.writeWords g page n data with access := none }) :=
  bookkeeping_of_dram hs (writeWords_wf hs.1 g page n data) rfl

theorem bookkeeping_writeDone (x : Access) (w : PageWrite) (p : Nat) (hs : archiveBookkeeping s) : archiveBookkeeping (writeDone s x w p) := by
  have hwrote := bookkeeping_wrote x.group x.page Config.pageWords (wordsOfBytes Config.pageWords w.bytes) hs
  unfold writeDone
  simp only
  split
  · exact hwrote
  · exact bookkeeping_of_books hwrote (books_withRc _ _)

theorem bookkeeping_testWritten (x : Access) (hs : archiveBookkeeping s) : archiveBookkeeping (testWritten s x) := by
  have hwrote := bookkeeping_wrote x.group x.page Config.pageWords (testPage x.page) hs
  unfold testWritten
  generalize testPage x.page = data at hwrote ⊢
  simp only
  split
  · exact hwrote
  · split
    · exact bookkeeping_of_books hwrote (books_withAc rfl rfl fun _ => rfl)
    · exact hwrote

/-- Corrected words are written back before the read is noted (R174). -/
theorem bookkeeping_scrubDone (x : Access) (r : ReadRequest) (wrong : WrongLanes) (hs : archiveBookkeeping s) :
    archiveBookkeeping (scrubDone s x r wrong) := by
  unfold scrubDone
  simp only
  split
  · exact bookkeeping_of_books hs rfl
  · generalize s.ac.readWords x.group x.page pageOffsets wrong = rs
    have hback : archiveBookkeeping (s.withAc ({ s.ac with access := none }.writeBack x.group x.page rs)) :=
      bookkeeping_of_dram hs (writeBack_wf (ac := { s.ac with access := none }) hs.1 _ _ _) rfl
    have hread := books_noteRead (s.withAc ({ s.ac with access := none }.writeBack x.group x.page rs)) x.group x.page .scrubRead
      (rs.map plainNote)
    exact bookkeeping_of_books hback ((books_noteDamage _ _ _).trans hread)

/-! ## Group states set -/

theorem bookkeeping_testComplete (hs : archiveBookkeeping s) : archiveBookkeeping s.testComplete :=
  bookkeeping_of_books (bookkeeping_regroup (s := s) (ac := s.testComplete.ac) hs.1) rfl

theorem bookkeeping_testAdvance (x : TestPosition) (faulted : Bool) (hs : archiveBookkeeping s) :
    archiveBookkeeping (s.testAdvance x faulted) := by
  rcases State.testAdvance_cases s x faulted with ⟨y, h, -⟩ | h <;> rw [h]
  · exact bookkeeping_of_books hs rfl
  · exact bookkeeping_testComplete hs

theorem bookkeeping_testRead (x : Access) (wrong : WrongLanes) (hs : archiveBookkeeping s) : archiveBookkeeping (testRead s x wrong) := by
  unfold testRead
  simp only
  split
  · exact bookkeeping_of_books hs rfl
  · have hnoted : ∀ ns faulted, archiveBookkeeping ((s.withAc { s.ac with access := none }).withAc
        (if faulted = true then ({ s.ac with access := none }.noteRead x.group x.page .test ns).markFault x.group
          else { s.ac with access := none }.noteRead x.group x.page .test ns)) := by
      intro ns faulted
      have hread := books_noteRead (s.withAc { s.ac with access := none }) x.group x.page .test ns
      cases faulted
      · exact bookkeeping_of_books hs hread
      · exact bookkeeping_of_books hs ((books_markFault _ _).trans hread)
    split
    · exact bookkeeping_testAdvance _ _ (hnoted _ _)
    · exact hnoted _ _

theorem bookkeeping_archiveMapTaken (bs : List Byte) (hs : archiveBookkeeping s) : archiveBookkeeping (archiveMapTaken bs s).1 := by
  unfold archiveMapTaken
  split
  · exact hs
  · split
    · exact hs
    · rename_i gs _
      exact bookkeeping_of_books
        (bookkeeping_regroup (s := s) (ac := { s.ac with bank := gs, groups := s.ac.mappedGroups gs, state := .mapped }) hs.1) rfl

theorem bookkeeping_archiveTestTaken (u : Unit) (hs : archiveBookkeeping s) : archiveBookkeeping (archiveTestTaken u s).1 := by
  unfold archiveTestTaken
  split
  · exact bookkeeping_of_books (bookkeeping_regroup (s := s) (ac := { s.ac with
      groups := s.ac.testGroups, test := some ⟨0, 0, false⟩, testRequest := true, state := .testing }) hs.1) rfl
  · exact hs

/-- After ARCHIVE_RESET the jobs end on the new books (R163, R186). -/
theorem bookkeeping_archiveResetTaken (u : Unit) (hs : archiveBookkeeping s) : archiveBookkeeping (archiveResetTaken u s).1 := by
  have hs := bookkeeping_of_books hs (books_stallFirst s)
  unfold archiveResetTaken
  simp only
  split
  · exact hs
  · exact bookkeeping_of_books (bookkeeping_regroup (s := s.stallFirst) (ac := s.stallFirst.ac.archiveReset) hs.1)
      (books_resetExports _)

/-! ## An access that ends in TIMEOUT -/

theorem bookkeeping_writePart (x : Access) (n : Nat) (hs : archiveBookkeeping s) :
    archiveBookkeeping (s.withAc { s.ac.writePart x n with access := none }) := by
  unfold Ac.writePart
  split
  · exact bookkeeping_wrote _ _ _ _ hs
  · exact bookkeeping_wrote _ _ _ _ hs
  · exact bookkeeping_of_books hs rfl

theorem bookkeeping_timeoutGroup (g : Group) (hs : archiveBookkeeping s) : archiveBookkeeping (s.timeoutGroup g) := by
  unfold State.timeoutGroup
  split
  · rw [State.faultGroup_eq]
    exact bookkeeping_of_books (bookkeeping_regroup (s := s)
      (ac := { s.ac with groups := s.ac.groups.update g (fun x => { x with state := .faulted }) }) hs.1) rfl
  · exact bookkeeping_of_books hs (books_markFault s g)
  · exact hs

theorem bookkeeping_tellTimeout (x : Access) (rs : List (Nat × WordRead)) (hs : archiveBookkeeping s) :
    archiveBookkeeping (s.tellTimeout x rs) := by
  unfold State.tellTimeout
  split
  · exact bookkeeping_of_books hs (books_writeTimedOut s _)
  · exact bookkeeping_of_books hs (books_deliver s _ _)
  · exact hs
  · split
    · exact bookkeeping_testAdvance _ _ hs
    · exact hs
  · split
    · exact bookkeeping_testAdvance _ _ hs
    · exact hs

theorem bookkeeping_timeoutAccess (x : Access) (n : Nat) (wrong : WrongLanes) (hs : archiveBookkeeping s) :
    archiveBookkeeping (timeoutAccess s x n wrong) := by
  have hwrote := bookkeeping_writePart x n hs
  unfold timeoutAccess
  simp only
  split
  · exact hwrote
  · refine bookkeeping_tellTimeout _ _ (bookkeeping_timeoutGroup _ (bookkeeping_of_books hwrote ?_))
    rw [books_notePartDamage]
    exact books_noteRead (s.withAc { s.ac.writePart x n with access := none }) x.group x.page x.kind.requester _

end archive

/-! ## The commands -/

section commands

variable {s t : State}

/-- After reset no group is mapped and the memory holds nothing that is known (R135, R177). -/
theorem bookkeeping_afterReset (pending : List Instr) (epoch : Nat) (roles : Tri Role) :
    archiveBookkeeping (State.afterReset pending epoch roles) := ⟨List.Pairwise.nil, rfl, (Nat.zero_div 2).symm⟩

/-- The commands that can write into the memory or set group states. -/
def actsOnBooks : Instr → Bool
  | .powerOn _ | .resetPin _ | .recordWriteCompletion | .accessTimeout _ _ | .scrubReadCompletion _ | .testAccessCompletion _
  | .archiveMap _ _ | .archiveTest _ _ | .archiveReset _ _ => true
  | _ => false

theorem books_of_next {u : State} (h : Host.Outcome.next (φ := Fault) (ρ := Refusal) u = .next t) (hu : books u = books s) :
    books t = books s := Host.Outcome.next.inj h ▸ hu

/-- Every other command leaves the books. -/
theorem exec_books {c : Instr} (hc : actsOnBooks c = false) (h : exec c s = .next t) : books t = books s := by
  cases c with
  | powerOn _ | resetPin _ | recordWriteCompletion | accessTimeout _ _ | scrubReadCompletion _ | testAccessCompletion _
  | archiveMap _ _ | archiveTest _ _ | archiveReset _ _ => cases hc
  | wordClockPeriod frames =>
    obtain rfl := Host.Outcome.next.inj h
    split <;> rfl
  | laneLock f =>
    obtain rfl := Host.Outcome.next.inj h
    split <;> rfl
  | captionPacket p =>
    obtain rfl := Host.Outcome.next.inj h
    split
    · exact books_takePacket s _ p
    · rfl
  | tickClose xbsy =>
    obtain rfl := Host.Outcome.next.inj h
    split
    · exact books_closeTick s xbsy
    · rfl
  | captionStale f =>
    obtain rfl := Host.Outcome.next.inj h
    split
    · split <;> rfl
    · rfl
  | carriageAbsent f =>
    obtain rfl := Host.Outcome.next.inj h
    split <;> rfl
  | heartbeatLapse =>
    obtain rfl := Host.Outcome.next.inj h
    exact books_lapseFirst s
  | settlement f => exact books_settlement h
  | settledTickNoticeLm f =>
    obtain rfl := Host.Outcome.next.inj h
    split <;> rfl
  | settledTickNoticeCc f =>
    obtain rfl := Host.Outcome.next.inj h
    split
    · rfl
    · simp only
      split <;> rfl
  | verdict f =>
    obtain rfl := Host.Outcome.next.inj h
    split
    · exact books_judgeRecords s _ _
    · rfl
  | incidentReport n =>
    obtain rfl := Host.Outcome.next.inj h
    split
    · rfl
    · exact books_handleReport _ _
  | recordWriteGrant =>
    obtain rfl := Host.Outcome.next.inj h
    split
    · exact books_grantWrite _ _
    · rfl
  | scrubReadGrant =>
    obtain rfl := Host.Outcome.next.inj h
    split
    · exact books_grantScrub s _
    · rfl
  | exportReadGrant =>
    obtain rfl := Host.Outcome.next.inj h
    split
    · exact books_grantExport s _
    · rfl
  | exportReadCompletion wrong =>
    obtain rfl := Host.Outcome.next.inj h
    split
    · split
      · exact books_exportReadDone s _ _ _
      · rfl
    · rfl
  | testAccessGrant =>
    obtain rfl := Host.Outcome.next.inj h
    split
    · split <;> rfl
    · rfl
  | exportStrobe =>
    obtain rfl := Host.Outcome.next.inj h
    split
    · rfl
    · split
      · rfl
      · exact books_strobe s _
  | exportStall =>
    obtain rfl := Host.Outcome.next.inj h
    exact books_stallFirst s
  | frameError l bytes =>
    obtain rfl := Host.Outcome.next.inj h
    split
    · exact books_received rfl
    · rfl
  | unknownRequest l kind payload =>
    obtain rfl := Host.Outcome.next.inj h
    split
    · exact books_received rfl
    · rfl
  | replyArrival n =>
    obtain rfl := Host.Outcome.next.inj h
    split <;> rfl
  | fetch l payload clocked =>
    obtain rfl := Host.Outcome.next.inj h
    split
    · exact books_received rfl
    · rfl
  | status l p => exact books_of_next h (books_passRequest fun a x => books_statusTaken x l a)
  | meter l p => exact books_of_next h (books_passRequest fun a x => books_meterTaken x a)
  | segmentRead l p => exact books_of_next h (books_passRequest fun a x => books_segmentReadTaken x a)
  | segmentList l p => exact books_of_next h (books_passRequest fun a x => books_segmentListTaken x a)
  | incidentFetch l p => exact books_of_next h (books_passRequest fun a x => books_incidentFetchTaken x l a)
  | holdList l p => exact books_of_next h (books_passRequest fun a x => books_holdListTaken x a)
  | limitsRead l p => exact books_of_next h (books_passRequest fun a x => books_limitsReadTaken x a)
  | policyRead l p => exact books_of_next h (books_passRequest fun a x => books_policyReadTaken x a)
  | archiveRead l p => exact books_of_next h (books_passRequest fun a x => books_archiveReadTaken x a)
  | captureRead l p => exact books_of_next h (books_passRequest fun _ _ => rfl)
  | attentionSet l p => exact books_of_next h (books_answerRequest fun a x => books_attentionSetTaken x l a)
  | attentionClear l p => exact books_of_next h (books_answerRequest fun _ _ => rfl)
  | scheduleClaim l p => exact books_of_next h (books_passRequest fun a x => books_claimTaken x l a)
  | scheduleYield l p => exact books_of_next h (books_passRequest fun a x => books_yieldTaken x l a)
  | timeSync l p => exact books_of_next h (books_passRequest fun a x => books_timeSyncTaken x l a)
  | announce l p => exact books_of_next h (books_passRequest fun a x => books_announceTaken x l a)
  | withdraw l p => exact books_of_next h (books_passRequest fun a x => books_withdrawTaken x l a)
  | limitsWrite l p => exact books_of_next h (books_passRequest fun a x => books_limitsWriteTaken x a)
  | policyWrite l p => exact books_of_next h (books_passRequest fun a x => books_policyWriteTaken x a)
  | feedSet l p => exact books_of_next h (books_passRequest fun a x => books_feedSetTaken x a)
  | heartbeatSet l p => exact books_of_next h (books_passRequest fun _ x => books_lapseFirst x)
  | holdPlace l p => exact books_of_next h (books_passRequest fun a x => books_holdPlaceTaken x l a)
  | holdRelease l p => exact books_of_next h (books_passRequest fun a x => books_holdReleaseTaken x a)
  | incidentReview l p => exact books_of_next h (books_passRequest fun a x => books_incidentReviewTaken x a)
  | exportStart l p => exact books_of_next h (books_passRequest fun a x => books_exportStartTaken x l a)
  | exportAbort l p => exact books_of_next h (books_passRequest fun a x => books_exportAbortTaken x a)
  | captureClear l p => exact books_of_next h (books_passRequest fun _ _ => rfl)
  | measureRestart l p => exact books_of_next h (books_passRequest fun a x => books_measureRestartTaken x a)
  | archiveRecord l p => exact books_of_next h (books_passRequest fun a x => books_archiveRecordTaken x a)
  | spareLaneSet l p => exact books_of_next h (books_passRequest fun a x => books_spareLaneTaken x a)

theorem bookkeeping_passRequest {α : Type} {k : Nat} {l : Link} {p : Payload α} {body : α → State → State × Reply}
    (h : Host.Outcome.next (φ := Fault) (ρ := Refusal) (passRequest k l p s body) = .next t)
    (hbody : ∀ a x, archiveBookkeeping x → archiveBookkeeping (body a x).1) (hs : archiveBookkeeping s) : archiveBookkeeping t :=
  Host.Outcome.next.inj h ▸ passRequest_keeps bookkeeping_of_books hbody hs

theorem exec_keepsBookkeeping {c : Instr} (hs : archiveBookkeeping s) (h : exec c s = .next t) : archiveBookkeeping t := by
  cases c with
  | powerOn straps =>
    obtain rfl := Host.Outcome.next.inj h
    exact bookkeeping_afterReset _ _ _
  | resetPin pin =>
    obtain rfl := Host.Outcome.next.inj h
    cases pin with
    | held => exact bookkeeping_of_books (bookkeeping_afterReset s.pending (s.ac.epoch + 1) (s.li.links.map (·.role))) rfl
    | released straps => exact bookkeeping_afterReset _ _ _
  | recordWriteCompletion =>
    obtain rfl := Host.Outcome.next.inj h
    split
    · split
      · exact bookkeeping_writeDone _ _ _ hs
      · exact hs
    · exact hs
  | accessTimeout words wrong =>
    obtain rfl := Host.Outcome.next.inj h
    split
    · exact bookkeeping_timeoutAccess _ _ _ hs
    · exact hs
  | scrubReadCompletion wrong =>
    obtain rfl := Host.Outcome.next.inj h
    split
    · split
      · exact bookkeeping_scrubDone _ _ _ hs
      · exact hs
    · exact hs
  | testAccessCompletion wrong =>
    obtain rfl := Host.Outcome.next.inj h
    split
    · split
      · exact bookkeeping_testWritten _ hs
      · exact bookkeeping_testRead _ _ hs
      · exact hs
    · exact hs
  | archiveMap l groups => exact bookkeeping_passRequest h (fun a _ hx => bookkeeping_archiveMapTaken a hx) hs
  | archiveTest l p => exact bookkeeping_passRequest h (fun a _ hx => bookkeeping_archiveTestTaken a hx) hs
  | archiveReset l p => exact bookkeeping_passRequest h (fun a _ hx => bookkeeping_archiveResetTaken a hx) hs
  | _ => exact bookkeeping_of_books hs (exec_books rfl h)

end commands

/-- Settles O57: a step is `exec` of the front command, and every command keeps the bookkeeping. -/
theorem archiveBookkeepingIsKept : Obligations.ArchiveBookkeepingIsKept := by
  unfold Obligations.ArchiveBookkeepingIsKept
  intro s t hs h
  unfold step at h
  split at h
  · exact Host.Outcome.next.inj h ▸ hs
  · rename_i rest _
    exact exec_keepsBookkeeping (bookkeeping_of_books (t := { s with pending := rest }) hs rfl) h

end Sys2Proof.Proofs.Retention
end

section

namespace Sys2Proof.Proofs.Retention

open Sys2Proof Sys2Proof.Machine

/-!
# HOLD_PLACE (R122, R125 to R127)
-/

/-- The checks of R125 in their order, and the lowest free entry (R127). -/
theorem judgePlacement_eq (s : State) (o : Owner) (first last reason : Nat) :
    judgePlacement s o first last reason =
      if last < first then .refused .badArgument
      else if s.ac.state ≠ .recording then .refused .wrongState
      else if last < s.retentionFloor then .refused .notFound
      else if s.fiu.openTick + 35999 < last then .refused .tooFar
      else if s.ru.quota < committedSum s.ru.holds + (last - max first s.retentionFloor + 1) then .refused .quota
      else match tableFree s.ru.holds 64 with
        | none => .refused .full
        | some i => .placed i ⟨s.ru.counter, o, max first s.retentionFloor, last, reason⟩ (decide (first < s.retentionFloor)) := rfl

/-- A hold that takes a free entry adds its pages to the committed sum (R123). -/
theorem committedSum_put {holds : List (Nat × Hold)} {i : Nat} (h : Hold) (hfree : tableGet holds i = none) :
    committedSum (tablePut holds i h) = committedSum holds + h.pages := by
  unfold committedSum
  induction holds with
  | nil => simp [tablePut]
  | cons e holds ih =>
    obtain ⟨k, x⟩ := e
    rw [tableGet_cons] at hfree
    split at hfree
    · cases hfree
    · rename_i hk
      simp only [tablePut]
      split
      · simp only [List.map_cons, List.sum_cons]
        omega
      · rw [if_neg (Ne.symm hk)]
        simp only [List.map_cons, List.sum_cons, ih hfree]
        omega

/-- What HOLD_PLACE answers (R127). -/
def placeReply (s : State) : Placement → Reply
  | .refused st => ⟨st, []⟩
  | .placed i h clamped => ⟨if clamped then .clamped else .ok,
      [.byte i, .long h.number, .tick h.first, .tick h.last, .long h.pages, .long s.ru.quota, .long (committedSum (tablePut s.ru.holds i h))]⟩

theorem exec_holdPlace {l : Link} {a : HoldPlaceArgs} {s : State} {p : Placement} (h : s.mayAsk l 36)
    (hp : judgePlacement s (.link l) a.first.toNat a.last.toNat a.reason.toNat = p) :
    exec (.holdPlace l (.fits a)) s = .next { s with ru := s.ru.take p, li := s.li.passed l 36 (placeReply s p) } := by
  refine congrArg Host.Outcome.next (Schedule.passRequest_of_body (s' := s.withRu (s.ru.take p)) h fun li => ?_)
  have hp' : judgePlacement (s.withLi li) (.link l) a.first.toNat a.last.toNat a.reason.toNat = p := hp
  unfold holdPlaceTaken
  rw [hp']
  cases p <;> rfl

theorem take_refused {s : State} {p : Placement} {st : Status} (h : p = .refused st) : s.ru.take p = s.ru ∧ placeReply s p = ⟨st, []⟩ := by
  subst h
  exact ⟨rfl, rfl⟩

/-- One check of a placement: what holds when it refuses, and what holds by the checks behind it. -/
theorem ite_of_check {c : Prop} [Decidable c] {p q : Placement} {st : Status} {refused passed : Prop}
    (hp : (if c then .refused st else q) = p) (hrefused : p = .refused st → refused) (hpassed : q = p → passed) :
    if c then refused else passed := by
  split
  · rename_i h
    exact hrefused ((if_pos h).symm.trans hp).symm
  · rename_i h
    exact hpassed ((if_neg h).symm.trans hp)

/-- Settles O46: HOLD_PLACE answers by the chain of `judgePlacement_eq`, outcome by outcome. -/
theorem holdPlacementChecksInOrder : Obligations.HoldPlacementChecksInOrder := by
  unfold Obligations.HoldPlacementChecksInOrder
  intro l a s floor h hfloor
  obtain rfl : floor = s.retentionFloor := hfloor.trans (Incidents.retentionFloor_eq s).symm
  obtain ⟨p, hp⟩ : ∃ p, judgePlacement s (.link l) a.first.toNat a.last.toNat a.reason.toNat = p := ⟨_, rfl⟩
  refine ⟨_, _, exec_holdPlace h hp, rfl, ?_⟩
  rw [judgePlacement_eq] at hp
  refine ite_of_check hp take_refused fun hp => ite_of_check hp take_refused fun hp => ite_of_check hp take_refused fun hp =>
    ite_of_check hp take_refused fun hp => ite_of_check hp take_refused fun hp => ?_
  cases hfree : tableFree s.ru.holds 64 with
  | none =>
    have hfull : ∀ i : Fin 64, (tableGet s.ru.holds i.val).isSome = true := fun i => tableFree_eq_none.mp hfree i.val i.isLt
    rw [if_pos hfull]
    exact take_refused (hp.symm.trans (by rw [hfree]))
  | some i =>
    obtain ⟨hi, hget, hlow⟩ := tableFree_eq_some.mp hfree
    rw [if_neg fun hfull => by simpa [hget] using hfull ⟨i, hi⟩]
    rw [hfree] at hp
    subst hp
    refine ⟨i, hi, hget, hlow, rfl, ?_⟩
    simp only [placeReply, committedSum_put _ hget, Hold.pages, decide_eq_true_eq]
    rfl

end Sys2Proof.Proofs.Retention
end

section

namespace Sys2Proof.Proofs.Retention

open Sys2Proof Sys2Proof.Machine

/-!
# HOLD_RELEASE and HOLD_LIST (R121, R128, R129, R134)
-/

/-- The fields of R121 with the owner by its kind (log entry 20). -/
theorem holdFields_eq (i : Nat) (h : Hold) : holdFields (i, h) = List.flatten
    [[.byte i, .long h.number],
     match h.owner with | .link m => [.byte 0, .byte m.val] | .incident n => [.byte 1, .long n] | .job n => [.byte 2, .long n],
     [.tick h.first, .tick h.last, .long (h.last - h.first + 1), .word h.reason]] := by
  unfold holdFields ownerFields
  cases h.owner <;> rfl

/-! ## HOLD_RELEASE (R128) -/

section release

variable {l : Link} {a : HoldReleaseArgs} {s : State}

theorem holdReleaseTaken_badIndex (h : 63 < a.index.toNat) : holdReleaseTaken a s = (s, ⟨.badArgument, []⟩) := if_pos h

theorem holdReleaseTaken_free (h : a.index.toNat ≤ 63) (hget : tableGet s.ru.holds a.index.toNat = none) :
    holdReleaseTaken a s = (s, ⟨.notFound, []⟩) := by
  refine (if_neg (Nat.not_le.mpr (Nat.lt_succ_of_le h))).trans ?_
  rw [hget]
  rfl

variable {hold : Hold} (h : a.index.toNat ≤ 63) (hget : tableGet s.ru.holds a.index.toNat = some hold)

include h hget

/-- An entry in use is released by its owner when the number matches. -/
theorem holdReleaseTaken_used : holdReleaseTaken a s =
    if a.number ≠ 0 ∧ a.number.toNat ≠ hold.number then (s, ⟨.notFound, []⟩) else releaseByOwner s a.index.toNat hold := by
  refine (if_neg (Nat.not_le.mpr (Nat.lt_succ_of_le h))).trans ?_
  rw [hget]
  rfl

theorem holdReleaseTaken_otherNumber (h0 : a.number ≠ 0) (hn : a.number.toNat ≠ hold.number) :
    holdReleaseTaken a s = (s, ⟨.notFound, []⟩) :=
  (holdReleaseTaken_used h hget).trans (if_pos ⟨h0, hn⟩)

theorem holdReleaseTaken_matched (hn : a.number = 0 ∨ a.number.toNat = hold.number) :
    holdReleaseTaken a s = releaseByOwner s a.index.toNat hold :=
  (holdReleaseTaken_used h hget).trans (if_neg fun ⟨h0, hne⟩ => hn.elim h0 hne)

end release

section owners

variable {s : State} {i : Nat} {h : Hold}

/-- The pin of a job is not released by request (R128). -/
theorem releaseByOwner_job {j : Nat} (ho : h.owner = .job j) : releaseByOwner s i h = (s, ⟨.wrongState, []⟩) := by
  simp only [releaseByOwner, ho, refuse]

theorem releaseByOwner_link {m : Link} (ho : h.owner = .link m) :
    releaseByOwner s i h = (s.withRu (s.ru.release i), releasedReply (s.ru.release i) (i, h)) := by
  simp only [releaseByOwner, ho]

/-- The record of an incident's hold is marked UNHELD with the release (R113, R128). -/
theorem releaseByOwner_incident {n : Nat} (ho : h.owner = .incident n) :
    releaseByOwner s i h =
      ((s.withRu (s.ru.release i)).withIu (s.iu.updateRecord n Incident.unhold), releasedReply (s.ru.release i) (i, h)) := by
  simp only [releaseByOwner, ho]

/-- The reply to a release: the hold as it stood and the sum after it (R128). -/
theorem releasedReply_eq (ru : Ru) {owner : List Wire} (ho : ownerFields h.owner = owner) :
    releasedReply ru (i, h) = ⟨.ok, [.byte i, .long h.number] ++ owner ++ [.tick h.first, .tick h.last, .long (h.last - h.first + 1),
      .word h.reason, .long ((ru.holds.map (fun e => e.2.last - e.2.first + 1)).sum)]⟩ := by
  subst ho
  simp only [releasedReply, holdFields, List.append_assoc, List.cons_append, List.nil_append]
  rfl

end owners

section commands

variable {l : Link} {a : HoldReleaseArgs} {s : State}

/-- A refused release changes nothing but the link's slot. -/
theorem exec_holdRelease_refused {st : Status} (h : s.mayAsk l 37)
    (hrefused : ∀ li, holdReleaseTaken a (s.withLi li) = (s.withLi li, ⟨st, []⟩)) :
    exec (.holdRelease l (.fits a)) s = .next { s with li := s.li.passed l 37 ⟨st, []⟩ } :=
  congrArg Host.Outcome.next (Loudness.passRequest_of_read h hrefused)

theorem exec_holdRelease {s' : State} {r : Reply} (h : s.mayAsk l 37)
    (hbody : ∀ li, holdReleaseTaken a (s.withLi li) = (s'.withLi li, r)) :
    exec (.holdRelease l (.fits a)) s = .next { s' with li := s.li.passed l 37 r } :=
  congrArg Host.Outcome.next (Schedule.passRequest_of_body h hbody)

end commands

/-! ## HOLD_LIST (R134) -/

section list

variable (holds : List (Nat × Hold)) (i : Nat)

/-- The holds that a list from entry `i` on shows (R134). -/
def shownHolds : List (Nat × Hold) := (holdsFrom holds i).take 8

theorem shownHolds_leads : shownHolds holds i <+: holdsFrom holds i := ⟨_, List.take_append_drop 8 _⟩

theorem shownHolds_length_le : (shownHolds holds i).length ≤ 8 := List.length_take_le 8 _

theorem shownHolds_eq_iff : shownHolds holds i = holdsFrom holds i ↔ (holdsFrom holds i).length ≤ 8 := List.take_eq_self_iff _

theorem shownHolds_all (h : (shownHolds holds i).length < 8) : shownHolds holds i = holdsFrom holds i := by
  rw [shownHolds_eq_iff]
  rw [shownHolds, List.length_take] at h
  omega

/-- No index to go on at is named when the list is complete. -/
theorem nextHoldIndex_complete (h : shownHolds holds i = holdsFrom holds i) : nextHoldIndex holds i = none :=
  if_neg (Nat.not_lt.mpr ((shownHolds_eq_iff holds i).mp h))

/-- Otherwise it is the one behind the last hold shown. -/
theorem nextHoldIndex_more (h : shownHolds holds i ≠ holdsFrom holds i) :
    ∃ e, (shownHolds holds i).getLast? = some e ∧ nextHoldIndex holds i = some (e.1 + 1) := by
  have hlen : 8 < (holdsFrom holds i).length := Nat.lt_of_not_le (mt (shownHolds_eq_iff holds i).mpr h)
  have hne : shownHolds holds i ≠ [] := by
    refine List.ne_nil_of_length_pos ?_
    rw [shownHolds, List.length_take]
    omega
  have hlast := List.getLast?_eq_some_getLast hne
  refine ⟨_, hlast, (if_pos hlen).trans ?_⟩
  exact congrArg (Option.map _) hlast

theorem exec_holdList {l : Link} {b : Byte} {s : State} (h : s.mayAsk l 6) :
    exec (.holdList l (.fits b)) s = .next { s with li := s.li.passed l 6 (holdListTaken b s).2 } := by
  refine congrArg Host.Outcome.next (Loudness.passRequest_of_read h fun li => ?_)
  unfold holdListTaken
  split <;> rfl

theorem holdListTaken_badIndex {b : Byte} {s : State} (h : 63 < b.toNat) : (holdListTaken b s).2 = ⟨.badArgument, []⟩ :=
  congrArg Prod.snd (if_pos h)

theorem holdListTaken_shown {b : Byte} {s : State} (h : b.toNat ≤ 63) : (holdListTaken b s).2 = ⟨.ok, holdListFields s b.toNat⟩ :=
  congrArg Prod.snd (if_neg (Nat.not_le.mpr (Nat.lt_succ_of_le h)))

end list

/-- Settles O47: HOLD_RELEASE by index, number and owner, and what HOLD_LIST shows. -/
theorem holdReleaseFollowsItsOwner : Obligations.HoldReleaseFollowsItsOwner := by
  unfold Obligations.HoldReleaseFollowsItsOwner
  refine ⟨holdFields_eq, fun l a s h => ⟨fun hi => ?badIndex, fun hi hget => ?free, fun hold hi hget =>
    ⟨fun h0 hn => ?otherNumber, fun hn => ⟨fun j ho => ?job, fun m ho => ?link, fun n ho => ?incident⟩⟩⟩, fun l b s h => ?list⟩
  case badIndex => exact exec_holdRelease_refused h fun li => holdReleaseTaken_badIndex hi
  case free => exact exec_holdRelease_refused h fun li => holdReleaseTaken_free hi hget
  case otherNumber => exact exec_holdRelease_refused h fun li => holdReleaseTaken_otherNumber hi hget h0 hn
  case job => exact exec_holdRelease_refused h fun li => (holdReleaseTaken_matched (s := s.withLi li) hi hget hn).trans (releaseByOwner_job ho)
  case link =>
    refine exec_holdRelease (s' := s.withRu (s.ru.release a.index.toNat)) h fun li => ?_
    rw [holdReleaseTaken_matched (s := s.withLi li) hi hget hn, releaseByOwner_link ho, releasedReply_eq _ (congrArg ownerFields ho)]
    rfl
  case incident =>
    refine exec_holdRelease (s' := (s.withRu (s.ru.release a.index.toNat)).withIu (s.iu.updateRecord n Incident.unhold)) h fun li => ?_
    rw [holdReleaseTaken_matched (s := s.withLi li) hi hget hn, releaseByOwner_incident ho, releasedReply_eq _ (congrArg ownerFields ho)]
    rfl
  case list =>
    refine ⟨_, exec_holdList h, holdListTaken_badIndex, fun hb => ?_⟩
    rw [holdListTaken_shown hb]
    refine ⟨rfl, shownHolds s.ru.holds b.toNat, _, shownHolds_leads _ _, shownHolds_length_le _ _, ?fields, shownHolds_all _ _,
      optionalField (fun n => [.byte n]) (nextHoldIndex s.ru.holds b.toNat),
      optionalField (fun t => [.tick t]) (whileRecording s s.retentionFloor),
      optionalField (fun t => [.tick t]) (whileRecording s s.retentionHorizon), fun hall => ?complete, fun hmore => ?more,
      fun hstate => ?idle, fun hstate => ?recording, rfl⟩
    case fields =>
      simp only [holdListFields, listed, List.flatten_cons, List.flatten_nil, List.append_assoc, List.append_nil]
      rfl
    case complete => rw [nextHoldIndex_complete _ _ hall, Loudness.optionalField_none]
    case more =>
      obtain ⟨e, hlast, hnext⟩ := nextHoldIndex_more _ _ hmore
      exact ⟨e, hlast, by rw [hnext, Loudness.optionalField_some]⟩
    case idle => simp only [whileRecording, if_neg hstate, Loudness.optionalField_none, and_self]
    case recording =>
      rw [whileRecording, whileRecording, if_pos hstate, if_pos hstate]
      exact ⟨rfl, congrArg (fun floor => [Wire.byte 1, Wire.tick floor]) (Incidents.retentionFloor_eq s)⟩

end Sys2Proof.Proofs.Retention
end

section

namespace Sys2Proof.Proofs.Retention

open Sys2Proof Sys2Proof.Machine

/-!
# No hold is altered (R121, R122)

A step that is no reset removes holds or places one with the next number. `HoldsFollow s t` says that no more happened from `s` to `t`; it is
carried through the operations that a command is made of.
-/

/-- From `s` on the Hold Table has only lost holds and taken new ones with numbers not issued before. -/
structure HoldsFollow (s t : State) : Prop where
  order : holdsInOrder t
  counter : s.ru.counter ≤ t.ru.counter
  entries : ∀ i h, tableGet s.ru.holds i = some h →
    tableGet t.ru.holds i = some h ∨ tableGet t.ru.holds i = none ∨ ∃ g, tableGet t.ru.holds i = some g ∧ s.ru.counter ≤ g.number

/-- What is left of a table in canonical form reads as before, or as free. -/
theorem tableGet_sublist {α : Type} {t u : List (Nat × α)} (ht : tableSorted t) (hsub : u.Sublist t) (i : Nat) :
    tableGet u i = tableGet t i ∨ tableGet u i = none := by
  cases hu : tableGet u i with
  | none => exact .inr rfl
  | some v => exact .inl (tableGet_of_mem ht (hsub.subset (mem_of_tableGet hu))).symm

/-! ## What keeps the relation -/

section operations

variable {s t u : State}

theorem HoldsFollow.refl (hs : holdsInOrder s) : HoldsFollow s s := ⟨hs, Nat.le_refl _, fun _ _ => .inl⟩

/-- Holds that go. -/
theorem HoldsFollow.sublist (hf : HoldsFollow s t) (hsub : u.ru.holds.Sublist t.ru.holds) (hc : u.ru.counter = t.ru.counter) :
    HoldsFollow s u where
  order := Incidents.holdsInOrder_of_sublist hf.order hsub hc
  counter := hc ▸ hf.counter
  entries i h hget := by
    rcases tableGet_sublist hf.order.1 hsub i with heq | hnone
    · rw [heq]
      exact hf.entries i h hget
    · exact .inr (.inl hnone)

theorem HoldsFollow.keeps (h : Incidents.KeepsIncidents t u) (hf : HoldsFollow s t) : HoldsFollow s u := hf.sublist h.holds h.counter

/-- A hold that is placed: at a free entry, with the next number (R122, R127). -/
theorem HoldsFollow.take {o : Owner} {a b reason i : Nat} {h : Hold} {c : Bool} (hf : HoldsFollow s t)
    (hp : judgePlacement t o a b reason = .placed i h c) : HoldsFollow s (t.withRu (t.ru.take (.placed i h c))) where
  order := Incidents.holdsInOrder_take hf.order hp rfl
  counter := Nat.le_succ_of_le hf.counter
  entries j x hget := by
    obtain ⟨-, -, -, -, -, -, -, -, rfl, -⟩ := judgePlacement_placed hp
    rw [State.withRu_ru, Ru.take, tableGet_put]
    split
    · exact .inr (.inr ⟨_, rfl, hf.counter⟩)
    · exact hf.entries j x hget

/-- The discard of a record takes at most its hold (R112). -/
theorem HoldsFollow.after_makeRoom (hf : HoldsFollow s t) : HoldsFollow s t.makeRoom := by
  rcases State.makeRoom_cases t with h | ⟨r, -, -, -, h⟩ <;> rw [h]
  · exact hf
  · unfold Ru.afterDiscard
    split
    · exact hf.sublist (Incidents.releaseOwned_sublist _ _ _) (Ru.releaseOwned_rest _ _ _).1
    · exact hf.sublist (.refl _) rfl

theorem HoldsFollow.after_handleReport (r : Report) (hf : HoldsFollow s t) : HoldsFollow s (t.handleReport r) := by
  unfold State.handleReport
  simp only
  split
  · exact hf
  · rcases State.raiseIncident_cases t (t.iu.policyOf r.kind) r with ⟨x, -, -, -, h⟩ | ⟨x, i, hold, c, -, -, -, hp, h⟩ <;> rw [h]
    · exact hf.after_makeRoom.sublist (.refl _) rfl
    · exact (hf.after_makeRoom.take hp).sublist (.refl _) rfl

theorem HoldsFollow.after_incidentFetchTaken (l : Link) (start : Option (BitVec 32)) (hf : HoldsFollow s t) :
    HoldsFollow s (incidentFetchTaken l start t).1 := by
  unfold incidentFetchTaken
  split
  · exact hf.sublist (.refl _) rfl
  · split <;> exact hf.sublist (.refl _) rfl

theorem HoldsFollow.after_incidentReviewTaken (a : IncidentReviewArgs) (hf : HoldsFollow s t) : HoldsFollow s (incidentReviewTaken a t).1 := by
  unfold incidentReviewTaken
  split
  · exact hf
  · split
    · exact hf
    · exact hf
    · split
      · exact hf
      · unfold reviewOpen
        split
        · exact hf.sublist (Incidents.releaseOwned_sublist _ _ _) (Ru.releaseOwned_rest _ _ _).1
        · exact hf.sublist (.refl _) rfl

theorem HoldsFollow.after_holdPlaceTaken (l : Link) (a : HoldPlaceArgs) (hf : HoldsFollow s t) : HoldsFollow s (holdPlaceTaken l a t).1 := by
  unfold holdPlaceTaken
  split
  · exact hf
  · rename_i hp
    exact hf.take hp

theorem HoldsFollow.after_holdReleaseTaken (a : HoldReleaseArgs) (hf : HoldsFollow s t) : HoldsFollow s (holdReleaseTaken a t).1 := by
  unfold holdReleaseTaken
  split
  · exact hf
  · split
    · exact hf
    · split
      · exact hf
      · unfold releaseByOwner
        simp only
        split
        · exact hf.sublist List.filter_sublist rfl
        · exact hf.sublist List.filter_sublist rfl
        · exact hf

theorem HoldsFollow.after_exportStartTaken (l : Link) (a : ExportStartArgs) (hf : HoldsFollow s t) : HoldsFollow s (exportStartTaken l a t).1 := by
  have hf := hf.keeps (Incidents.keeps_stallFirst t)
  unfold exportStartTaken
  simp only
  split
  · exact hf
  · split
    · exact hf
    · split
      · unfold pinAndQueue
        split
        · exact hf
        · split
          · exact hf
          · exact hf
          · rename_i hp
            exact (hf.take hp).keeps (.of_view (Incidents.view_queueJob _ _))
      · exact hf

/-- ARCHIVE_RESET empties the table (R136). -/
theorem HoldsFollow.after_archiveResetTaken (a : Unit) (hf : HoldsFollow s t) : HoldsFollow s (archiveResetTaken a t).1 := by
  have hf := hf.keeps (Incidents.keeps_stallFirst t)
  unfold archiveResetTaken
  simp only
  split
  · exact hf
  · refine HoldsFollow.keeps ((Incidents.keeps_resetExports _).then_view rfl) ?_
    exact hf.sublist (List.nil_sublist _) rfl

end operations

/-! ## The commands -/

section commands

variable {s t : State}

theorem follow_passRequest {α : Type} {k : Nat} {l : Link} {p : Payload α} {body : α → State → State × Reply}
    (h : Host.Outcome.next (φ := Fault) (ρ := Refusal) (passRequest k l p s body) = .next t)
    (hbody : ∀ a x, HoldsFollow s x → HoldsFollow s (body a x).1) (hs : holdsInOrder s) : HoldsFollow s t :=
  Host.Outcome.next.inj h ▸ Incidents.passRequest_keeps HoldsFollow.keeps hbody (.refl hs)

/-- The commands that start the part afresh (R135). -/
def isReset : Instr → Bool
  | .powerOn _ | .resetPin _ => true
  | _ => false

theorem exec_reset_holds {c : Instr} (hc : isReset c = true) (h : exec c s = .next t) : t.ru.holds = [] := by
  unfold isReset at hc
  split at hc
  · obtain rfl := Host.Outcome.next.inj h
    rfl
  · rename_i pin
    obtain rfl := Host.Outcome.next.inj h
    cases pin <;> rfl
  · cases hc

theorem exec_holdsFollow {c : Instr} (hc : isReset c = false) (hs : holdsInOrder s) (h : exec c s = .next t) : HoldsFollow s t := by
  cases c with
  | powerOn _ | resetPin _ => cases hc
  | incidentReport n =>
    obtain rfl := Host.Outcome.next.inj h
    split
    · exact .refl hs
    · exact HoldsFollow.after_handleReport _ ((HoldsFollow.refl hs).sublist (.refl _) rfl)
  | incidentFetch l p => exact follow_passRequest h (fun a _ hf => hf.after_incidentFetchTaken l a) hs
  | incidentReview l p => exact follow_passRequest h (fun a _ hf => hf.after_incidentReviewTaken a) hs
  | holdPlace l p => exact follow_passRequest h (fun a _ hf => hf.after_holdPlaceTaken l a) hs
  | holdRelease l p => exact follow_passRequest h (fun a _ hf => hf.after_holdReleaseTaken a) hs
  | exportStart l p => exact follow_passRequest h (fun a _ hf => hf.after_exportStartTaken l a) hs
  | archiveReset l p => exact follow_passRequest h (fun a _ hf => hf.after_archiveResetTaken a) hs
  | _ => exact (HoldsFollow.refl hs).keeps (Incidents.exec_keepsIncidents rfl h)

end commands

/-- Settles O48: a reset empties the table, and from every other command the holds follow those before it. -/
theorem holdsAreNeverAltered : Obligations.HoldsAreNeverAltered := by
  unfold Obligations.HoldsAreNeverAltered
  intro s t i h hs hstep hget
  unfold step at hstep
  split at hstep
  · exact .inl (Host.Outcome.next.inj hstep ▸ hget)
  · rename_i c rest _
    cases hc : isReset c with
    | true => exact .inr (.inl (by rw [exec_reset_holds hc hstep, tableGet_nil]))
    | false => exact (exec_holdsFollow (s := { s with pending := rest }) hc hs hstep).entries i h hget

end Sys2Proof.Proofs.Retention
end

section

namespace Sys2Proof.Proofs.Recording

open Sys2Proof Sys2Proof.Machine

/-!
# CAPTURE_READ, CAPTURE_CLEAR and ARCHIVE_READ (R151, R169, R176)
-/

/-! ## What each section shows -/

section sections

variable (s : State)

/-- The test under way is shown only while TESTING. -/
theorem shownTest_spec {test : List Wire} (h : test = optionalField (testFields s.ac) (if s.ac.state = .testing then s.ac.test else none)) :
    (s.ac.state ≠ .testing ∨ s.ac.test = none → test = [.byte 0]) ∧
      ∀ x, s.ac.state = .testing → s.ac.test = some x → test = .byte 1 :: .byte x.slot :: .long x.page ::
        (List.range 4).map (fun i =>
          .choice (decide (Fin.ofNat 4 i ∈ s.ac.bank) && (s.ac.groups.get (Fin.ofNat 4 i)).faultMark)) := by
  subst h
  refine ⟨?_, fun x hs hx => ?_⟩
  · rintro (hs | hx)
    · rw [if_neg hs]
      rfl
    · rw [hx, ite_self]
      rfl
  · rw [if_pos hs, hx]
    rfl

/-- The write in flight is a record write that was not abandoned (R151, R154). -/
theorem writeInFlight_record {ac : Ac} {w : PageWrite} {p page : Nat} {g : Group} (h : ac.access = some ⟨.record w p, g, page, false⟩) :
    ac.writeInFlight = some (w.tick, w.retry) := by
  simp [Ac.writeInFlight, h]

theorem writeInFlight_none {ac : Ac} (h : ∀ w p g page, ac.access ≠ some ⟨.record w p, g, page, false⟩) : ac.writeInFlight = none := by
  unfold Ac.writeInFlight
  split
  · next x hx =>
    obtain ⟨kind, g, page, abandoned⟩ := x
    cases kind with
    | record w p =>
      cases abandoned with
      | true => rfl
      | false => exact absurd hx (h w p g page)
    | _ => rfl
  · rfl

/-- The items of SUMMARY in order (R151, R176; log entries 20, 48 and 49). -/
theorem summarySection_eq : summarySection s = List.flatten
    [[.byte s.ac.state.place],
     ((List.range 4).map (fun i => match s.ac.bank[i]? with | none => [.byte 0] | some g => [.byte 1, .byte g.val])).flatten,
     [.long (524288 * s.ac.bank.length), .long s.ru.healthyPages],
     ((List.range 4).map (fun i => [.byte (s.ac.groups.get (Fin.ofNat 4 i)).state.place,
       .word (s.ac.groups.get (Fin.ofNat 4 i)).corrected, .word (s.ac.groups.get (Fin.ofNat 4 i)).uncorrectable])).flatten,
     optionalField (testFields s.ac) (if s.ac.state = .testing then s.ac.test else none),
     match s.ac.scrub with | none => [.byte 0] | some c => [.byte 1, .byte c.index, .long c.number, .tick c.next],
     [.word s.ac.damaged.length, .choice s.ac.capture.isSome, .long s.rc.writePos, .word s.rc.spans.length],
     match s.rc.spans.head? with | none => [.byte 0] | some x => [.byte 1, .tick x.firstTick],
     match s.rc.spans.getLast? with | none => [.byte 0] | some x => [.byte 1, .tick (x.firstTick + x.length - 1)],
     [.long s.rc.discarded, .choice s.rc.stall],
     optionalField (fun (w : Nat × Bool) => [.tick w.1, .choice w.2]) s.ac.writeInFlight, [.word 0]] := by
  have hold : optionalField (fun t => [.tick t]) (oldestPresent s.rc.spans) =
      match s.rc.spans.head? with | none => [.byte 0] | some x => [.byte 1, .tick x.firstTick] := by
    unfold oldestPresent
    cases s.rc.spans.head? <;> rfl
  have hnew : optionalField (fun t => [.tick t]) (newestPresent s.rc.spans) =
      match s.rc.spans.getLast? with | none => [.byte 0] | some x => [.byte 1, .tick (x.firstTick + x.length - 1)] := by
    unfold newestPresent
    cases s.rc.spans.getLast? <;> rfl
  have hscrub : optionalField (fun (c : ScrubCursor) => [.byte c.index, .long c.number, .tick c.next]) s.ac.scrub =
      match s.ac.scrub with | none => [.byte 0] | some c => [.byte 1, .byte c.index, .long c.number, .tick c.next] := by
    cases s.ac.scrub <;> rfl
  have hbank : bankFields s.ac.bank =
      ((List.range 4).map (fun i => match s.ac.bank[i]? with | none => [.byte 0] | some g => [.byte 1, .byte g.val])).flatten := by
    refine congrArg List.flatten (List.map_congr_left fun i _ => ?_)
    cases s.ac.bank[i]? <;> rfl
  rw [← hold, ← hnew, ← hscrub, ← hbank]
  simp only [summarySection, recorderFields, List.flatten_cons, List.flatten_nil, List.append_nil, List.append_assoc]
  rfl

/-- A section that lists items shows those from the position on, up to eight, and the number beyond them (R176). -/
theorem pagedSection_spec {α : Type} (f : α → List Wire) (xs : List α) (position : Nat) :
    ∃ shown, shown <+: xs.drop position ∧ shown.length ≤ 8 ∧
      pagedSection f xs position = .byte shown.length :: (shown.map f).flatten ++ [.word (xs.length - position - shown.length)] ∧
      (shown.length < 8 → shown = xs.drop position) := by
  refine ⟨(xs.drop position).take 8, List.take_prefix _ _, List.length_take_le 8 _, ?_, fun h => ?_⟩
  · have hrest : (xs.drop position).length - 8 = xs.length - position - ((xs.drop position).take 8).length := by
      rw [List.length_take, List.length_drop]
      omega
    rw [← hrest]
    rfl
  · rw [List.length_take] at h
    exact List.take_of_length_le (by omega)

theorem spareSection_eq (g : Group) : spareSection s g =
    .byte (s.ac.spares.get g).length :: (((s.ac.spares.get g).map (fun e =>
      (match e.lane with | none => [.byte 0] | some k => [.byte 1, .byte k]) ++ [.choice e.quiet])).flatten ++ [.word 0]) := by
  refine congrArg (fun fields : List (List Wire) => .byte (s.ac.spares.get g).length :: (fields.flatten ++ [.word 0]))
    (List.map_congr_left fun e _ => ?_)
  unfold spareFields
  cases e.lane <;> rfl

end sections

/-! ## The requests -/

section requests

variable {l : Link} {s : State}

theorem captureFields_spec {o : Option Capture} {fields : List Wire} (h : fields = optionalField captureFields o) :
    (o = none → fields = [.byte 0]) ∧
      ∀ c, o = some c → fields =
        [.byte 1, .byte c.group.val, .long c.page, .word c.word, .byte c.syndrome.toNat, .byte c.kind.place, .byte c.requester.place] := by
  subst h
  exact ⟨fun h => h ▸ rfl, fun c h => h ▸ rfl⟩

theorem exec_captureRead (h : s.mayAsk l 10) :
    exec (.captureRead l (.fits ())) s = .next { s with li := s.li.passed l 10 ⟨.ok, optionalField captureFields s.ac.capture⟩ } :=
  congrArg Host.Outcome.next (Loudness.passRequest_of_read h fun _ => rfl)

theorem exec_captureClear (h : s.mayAsk l 41) :
    exec (.captureClear l (.fits ())) s = .next { s with
      ac := { s.ac with capture := none }, li := s.li.passed l 41 ⟨.ok, optionalField captureFields s.ac.capture⟩ } :=
  congrArg Host.Outcome.next (passRequest_fits () captureClearTaken h)

theorem archiveReadTaken_withLi (a : ArchiveReadArgs) (li : Li) :
    archiveReadTaken a (s.withLi li) = (s.withLi li, (archiveReadTaken a s).2) := by
  have hsection : sectionFields (s.withLi li) a.part.toNat a.position.toNat = sectionFields s a.part.toNat a.position.toNat := rfl
  unfold archiveReadTaken
  rw [hsection]
  cases sectionFields s a.part.toNat a.position.toNat <;> rfl

theorem exec_archiveRead {a : ArchiveReadArgs} (h : s.mayAsk l 9) :
    exec (.archiveRead l (.fits a)) s = .next { s with li := s.li.passed l 9 (archiveReadTaken a s).2 } :=
  congrArg Host.Outcome.next (Loudness.passRequest_of_read h (archiveReadTaken_withLi a))

theorem archiveReadTaken_refused {a : ArchiveReadArgs} (h : sectionFields s a.part.toNat a.position.toNat = none) :
    (archiveReadTaken a s).2 = ⟨.badArgument, []⟩ := by
  simp only [archiveReadTaken, h]
  rfl

theorem archiveReadTaken_shown {a : ArchiveReadArgs} {fields : List Wire}
    (h : sectionFields s a.part.toNat a.position.toNat = some fields) : (archiveReadTaken a s).2 = ⟨.ok, fields⟩ := by
  simp only [archiveReadTaken, h]

end requests

/-- Settles O53: the section an ARCHIVE_READ names decides, and within it the position. -/
theorem captureAndConditionAreRead : Obligations.CaptureAndConditionAreRead := by
  unfold Obligations.CaptureAndConditionAreRead
  refine ⟨fun l s h => ⟨_, exec_captureRead h, captureFields_spec rfl⟩, fun l s h => ⟨_, exec_captureClear h, captureFields_spec rfl⟩,
    fun l a s h => ⟨_, exec_archiveRead h, ?_⟩⟩
  have hpart (n : Nat) (hn : n < 256) (hp : a.part.toNat = n) : a.part = BitVec.ofNat 8 n := by
    apply BitVec.eq_of_toNat_eq
    rw [hp, BitVec.toNat_ofNat, Nat.mod_eq_of_lt hn]
  rcases hp : a.part.toNat with _ | _ | _ | _ | n
  case zero =>
    by_cases h0 : a.position.toNat = 0
    · have hsection : sectionFields s a.part.toNat a.position.toNat = some (summarySection s) := by rw [hp, h0]; rfl
      rw [archiveReadTaken_shown hsection]
      refine .inr ⟨rfl, .inl ⟨hpart 0 (by decide) hp, BitVec.eq_of_toNat_eq h0, _, _, summarySection_eq s, ?_⟩⟩
      obtain ⟨hno, hyes⟩ := shownTest_spec s rfl
      exact ⟨hno, hyes, fun w p g page hx => by rw [writeInFlight_record hx]; rfl, fun hx => by rw [writeInFlight_none hx]; rfl⟩
    · have hsection : sectionFields s a.part.toNat a.position.toNat = none := by rw [hp]; exact if_neg h0
      exact .inl ⟨archiveReadTaken_refused hsection, .inr (.inl ⟨hpart 0 (by decide) hp, fun hz => h0 (hz ▸ rfl)⟩)⟩
  case succ.zero =>
    by_cases h1 : a.position.toNat < 512
    · have hsection : sectionFields s a.part.toNat a.position.toNat =
          some (pagedSection (spanFields s.ac) s.rc.spans a.position.toNat) := by rw [hp]; exact if_pos h1
      rw [archiveReadTaken_shown hsection]
      obtain ⟨shown, hpre, hlen, hfields, hall⟩ := pagedSection_spec (spanFields s.ac) s.rc.spans a.position.toNat
      exact .inr ⟨rfl, .inr (.inl ⟨hpart 1 (by decide) hp, by omega, shown, _, hpre, hlen, hfields, hall, rfl⟩)⟩
    · have hsection : sectionFields s a.part.toNat a.position.toNat = none := by rw [hp]; exact if_neg h1
      exact .inl ⟨archiveReadTaken_refused hsection, .inr (.inr (.inl ⟨hpart 1 (by decide) hp, by omega⟩))⟩
  case succ.succ.zero =>
    by_cases h2 : a.position.toNat < 64
    · have hsection : sectionFields s a.part.toNat a.position.toNat =
          some (pagedSection (damagedFields s.ru.holds) s.ac.damaged a.position.toNat) := by rw [hp]; exact if_pos h2
      rw [archiveReadTaken_shown hsection]
      obtain ⟨shown, hpre, hlen, hfields, hall⟩ := pagedSection_spec (damagedFields s.ru.holds) s.ac.damaged a.position.toNat
      exact .inr ⟨rfl, .inr (.inr (.inl ⟨hpart 2 (by decide) hp, by omega, shown, _, hpre, hlen, hfields, hall, rfl⟩))⟩
    · have hsection : sectionFields s a.part.toNat a.position.toNat = none := by rw [hp]; exact if_neg h2
      exact .inl ⟨archiveReadTaken_refused hsection, .inr (.inr (.inr (.inl ⟨hpart 2 (by decide) hp, by omega⟩)))⟩
  case succ.succ.succ.zero =>
    by_cases h3 : a.position.toNat < 4
    · have hsection : sectionFields s a.part.toNat a.position.toNat = some (spareSection s ⟨a.position.toNat, h3⟩) := by
        rw [hp]; exact dif_pos h3
      rw [archiveReadTaken_shown hsection]
      exact .inr ⟨rfl, .inr (.inr (.inr ⟨hpart 3 (by decide) hp, ⟨a.position.toNat, h3⟩, rfl, spareSection_eq s _⟩))⟩
    · have hsection : sectionFields s a.part.toNat a.position.toNat = none := by rw [hp]; exact dif_neg h3
      exact .inl ⟨archiveReadTaken_refused hsection, .inr (.inr (.inr (.inr ⟨hpart 3 (by decide) hp, by omega⟩)))⟩
  case succ.succ.succ.succ =>
    have hsection : sectionFields s a.part.toNat a.position.toNat = none := by rw [hp]; rfl
    exact .inl ⟨archiveReadTaken_refused hsection, .inl (by omega)⟩

end Sys2Proof.Proofs.Recording
end

section

namespace Sys2Proof.Proofs.Recording

open Sys2Proof Sys2Proof.Machine

/-!
# A record write that ends (R146, R154, R166)
-/

/-! ## The words of a page -/

theorem wordsOfBytes_length (n : Nat) (bs : List Byte) : (wordsOfBytes n bs).length = n := by
  induction n generalizing bs with
  | zero => rfl
  | succ n ih => exact congrArg (· + 1) (ih _)

/-- Word w of a page holds bytes 8w to 8w + 7 (section 8.1). -/
theorem wordsOfBytes_getElem? {n i : Nat} (bs : List Byte) (hi : i < n) :
    (wordsOfBytes n bs)[i]? = some (wordOfBytes ((bs.drop (8 * i)).take 8)) := by
  induction n generalizing i bs with
  | zero => omega
  | succ n ih =>
    cases i with
    | zero => rfl
    | succ i =>
      have hdrop : 8 + 8 * i = 8 * (i + 1) := by omega
      rw [wordsOfBytes, List.getElem?_cons_succ, ih _ (by omega), List.drop_drop, hdrop]

/-- Where the words of a page stand in the memory. -/
theorem wordAddress_eq (g : Group) (page w : Nat) : wordAddress g page w = (g.val * 524288 + page) * 1024 + w := by
  simp only [wordAddress, Config.groupPages, Config.pageWords]

section words

variable (ac : Ac) (g : Group) (page : Nat)

theorem writeWords_dram (n : Nat) (data : List (BitVec 64)) : (ac.writeWords g page n data).dram =
    dramWrite ac.dram (wordAddress g page 0) ((data.take n).map (lanesOf (ac.spareOf g page).lane)) := rfl

theorem writeWords_get_other (n a : Nat) (data : List (BitVec 64))
    (h : a < (g.val * 524288 + page) * 1024 ∨ (g.val * 524288 + page) * 1024 + n ≤ a) :
    tableGet (ac.writeWords g page n data).dram a = tableGet ac.dram a := by
  have haddress := wordAddress_eq g page 0
  have hlength : ((data.take n).map (lanesOf (ac.spareOf g page).lane)).length ≤ n := by
    rw [List.length_map]
    exact List.length_take_le n data
  rw [writeWords_dram, dramWrite_get]
  exact if_neg (by omega)

/-- Words that were all written read as their codewords (R166, R168). -/
theorem writeWords_get_page {n i : Nat} (bs : List Byte) (hi : i < n) :
    tableGet (ac.writeWords g page n (wordsOfBytes n bs)).dram ((g.val * 524288 + page) * 1024 + i) =
      some (lanesOf (ac.spareOf g page).lane (wordOfBytes ((bs.drop (8 * i)).take 8))) := by
  have haddress := wordAddress_eq g page 0
  have htake : (wordsOfBytes n bs).take n = wordsOfBytes n bs := List.take_of_length_le (wordsOfBytes_length n bs).le
  have hoffset : (g.val * 524288 + page) * 1024 + i - wordAddress g page 0 = i := by omega
  rw [writeWords_dram, dramWrite_get, htake, List.length_map, wordsOfBytes_length, if_pos (by omega), hoffset, List.getElem?_map,
    wordsOfBytes_getElem? bs hi, Option.map_some]

end words

/-! ## The Span List after a tick joins (R142, R146) -/

section spans

variable {spans : List Span} {c p : Nat}

theorem Span.hasTick_iff (x : Span) (t : Nat) : x.hasTick t = true ↔ x.firstTick ≤ t ∧ t < x.firstTick + x.length := by
  simp [Span.hasTick]

theorem Span.hasPage_iff (x : Span) (p : Nat) : x.hasPage p = true ↔ x.firstPage ≤ p ∧ p < x.firstPage + x.length := by
  simp [Span.hasPage]

theorem Span.growsBy_iff (x : Span) (c p : Nat) : x.growsBy c p = true ↔ p = x.firstPage + x.length ∧ c = x.firstTick + x.length := by
  simp [Span.growsBy]

theorem pageOf_append_of_none {xs ys : List Span} {t : Nat} (h : ∀ x ∈ xs, x.hasTick t ≠ true) : pageOf (xs ++ ys) t = pageOf ys t := by
  unfold pageOf
  rw [List.find?_append, List.find?_eq_none.mpr h, Option.none_or]

theorem storedTick_append_of_none {xs ys : List Span} (h : ∀ x ∈ xs, x.hasPage p ≠ true) :
    storedTick (xs ++ ys) p = storedTick ys p := by
  unfold storedTick
  rw [List.find?_append, List.find?_eq_none.mpr h, Option.none_or]

/-- What the last span may be replaced by without another tick seeing it. -/
theorem pageOf_append_congr (xs : List Span) {ys zs : List Span} {t : Nat} (h : pageOf ys t = pageOf zs t) :
    pageOf (xs ++ ys) t = pageOf (xs ++ zs) t := by
  unfold pageOf at h ⊢
  rw [List.find?_append, List.find?_append]
  cases xs.find? (fun x => x.hasTick t) with
  | some x => rfl
  | none => rw [Option.none_or, Option.none_or, h]

/-- A tick that joins grows the newest span or starts one (R146). -/
theorem joinTick_cases (spans : List Span) (c p : Nat) :
    (∃ front x, spans = front ++ [x] ∧ p = x.firstPage + x.length ∧ c = x.firstTick + x.length ∧
        joinTick spans c p = front ++ [{ x with length := x.length + 1 }]) ∨
      joinTick spans c p = spans ++ [⟨c, p, 1⟩] := by
  rcases List.eq_nil_or_concat spans with rfl | ⟨front, x, rfl⟩
  · exact .inr rfl
  · unfold joinTick
    rw [List.concat_eq_append, List.getLast?_concat, List.dropLast_concat]
    by_cases hg : x.growsBy c p = true
    · obtain ⟨hpage, htick⟩ := (Span.growsBy_iff x c p).mp hg
      exact .inl ⟨front, x, rfl, hpage, htick, if_pos hg⟩
    · exact .inr (if_neg hg)

theorem joinTick_length (spans : List Span) (c p : Nat) :
    (joinTick spans c p).length = spans.length ∨ (joinTick spans c p).length = spans.length + 1 := by
  rcases joinTick_cases spans c p with ⟨front, x, rfl, -, -, h⟩ | h
  · exact .inl (by rw [h, List.length_append, List.length_append]; rfl)
  · exact .inr (by rw [h, List.length_append]; rfl)

theorem pageOf_single (x : Span) (t : Nat) : pageOf [x] t = if x.hasTick t = true then some (x.firstPage + (t - x.firstTick)) else none := by
  unfold pageOf
  rw [List.find?_singleton]
  split <;> rfl

theorem storedTick_single (x : Span) (p : Nat) :
    storedTick [x] p = if x.hasPage p = true then some (x.firstTick + (p - x.firstPage)) else none := by
  unfold storedTick
  rw [List.find?_singleton]
  split <;> rfl

/-- The tick is found on its page once it has joined, where it was not present and its page free. -/
theorem joinTick_found (htick : ∀ x ∈ spans, x.hasTick c ≠ true) (hpage : ∀ x ∈ spans, x.hasPage p ≠ true) :
    pageOf (joinTick spans c p) c = some p ∧ storedTick (joinTick spans c p) p = some c := by
  rcases joinTick_cases spans c p with ⟨front, x, rfl, hp, hc, h⟩ | h
  · have hfront {y : Span} (hy : y ∈ front) : y ∈ front ++ [x] := List.mem_append_left _ hy
    rw [h, pageOf_append_of_none fun y hy => htick y (hfront hy), storedTick_append_of_none fun y hy => hpage y (hfront hy),
      pageOf_single, storedTick_single, if_pos ((Span.hasTick_iff _ _).mpr (by simp only; omega)),
      if_pos ((Span.hasPage_iff _ _).mpr (by simp only; omega))]
    simp only [Option.some.injEq]
    omega
  · rw [h, pageOf_append_of_none htick, storedTick_append_of_none hpage, pageOf_single, storedTick_single,
      if_pos ((Span.hasTick_iff _ _).mpr (by simp only; omega)), if_pos ((Span.hasPage_iff _ _).mpr (by simp only; omega))]
    simp

/-- No other tick sees it join. -/
theorem joinTick_pageOf_other {u : Nat} (hu : u ≠ c) : pageOf (joinTick spans c p) u = pageOf spans u := by
  rcases joinTick_cases spans c p with ⟨front, x, rfl, -, hc, h⟩ | h
  · rw [h]
    refine pageOf_append_congr front ?_
    have hsame : Span.hasTick { x with length := x.length + 1 } u = true ↔ x.hasTick u = true := by
      rw [Span.hasTick_iff, Span.hasTick_iff]
      simp only
      omega
    simp only [pageOf_single, hsame]
  · have hnew : pageOf [⟨c, p, 1⟩] u = none := by
      rw [pageOf_single, if_neg]
      rw [Span.hasTick_iff]
      simp only
      omega
    rw [h]
    calc pageOf (spans ++ [⟨c, p, 1⟩]) u = pageOf (spans ++ []) u := pageOf_append_congr spans hnew
      _ = pageOf spans u := by rw [List.append_nil]

end spans

/-! ## The completion -/

section completion

variable {s : State} {w : PageWrite} {p page : Nat} {g : Group}

/-- The Archive Controller after words were written, the access at its end. -/
def wroteWords (ac : Ac) (g : Group) (page n : Nat) (data : List (BitVec 64)) : Ac :=
  { ac with access := none, dram := (ac.writeWords g page n data).dram }

/-- A completed write stores its page, and its tick joins the Span List (R146). -/
theorem exec_recordWriteCompletion (h : s.ac.access = some ⟨.record w p, g, page, false⟩) :
    exec .recordWriteCompletion s = .next { s with
      ac := wroteWords s.ac g page Config.pageWords (wordsOfBytes Config.pageWords w.bytes)
      rc := { s.rc with spans := joinTick s.rc.spans w.tick p, stall := false } } := by
  change execRecordWriteCompletion s = _
  simp only [execRecordWriteCompletion, h, writeDone]
  generalize Config.pageWords = n
  rfl

/-- An abandoned write adds no tick (R154). -/
theorem exec_recordWriteCompletion_abandoned (h : s.ac.access = some ⟨.record w p, g, page, true⟩) :
    exec .recordWriteCompletion s = .next { s with
      ac := wroteWords s.ac g page Config.pageWords (wordsOfBytes Config.pageWords w.bytes) } := by
  change execRecordWriteCompletion s = _
  simp only [execRecordWriteCompletion, h, writeDone]
  generalize Config.pageWords = n
  rfl

end completion

/-- Settles O50: `joinTick_found` and `joinTick_pageOf_other` for the Span List, `writeWords_get_page` and `writeWords_get_other` for the memory. -/
theorem writeCompletionMakesTheTickPresent : Obligations.WriteCompletionMakesTheTickPresent := by
  unfold Obligations.WriteCompletionMakesTheTickPresent
  refine ⟨fun s w p page g hx hfree => ?_, fun s w p page g hx => ?_⟩
  · have htick : ∀ x ∈ s.rc.spans, x.hasTick w.tick ≠ true := fun x hmem => by
      rw [Ne, Span.hasTick_iff]
      exact (hfree x hmem).1
    have hpage : ∀ x ∈ s.rc.spans, x.hasPage p ≠ true := fun x hmem => by
      rw [Ne, Span.hasPage_iff]
      exact (hfree x hmem).2.1
    obtain ⟨hfound, hstored⟩ := joinTick_found htick hpage
    have hexec := exec_recordWriteCompletion hx
    generalize hn : Config.pageWords = n at hexec
    exact ⟨_, hexec, rfl, rfl, hfound, hstored, joinTick_length _ _ _, fun u hu => joinTick_pageOf_other hu,
      fun i hi => writeWords_get_page s.ac g page w.bytes (hn ▸ hi),
      fun a ha => writeWords_get_other s.ac g page n a _ (hn ▸ ha),
      rfl, rfl, rfl, rfl, rfl, rfl, rfl, rfl, rfl, rfl⟩
  · have hexec := exec_recordWriteCompletion_abandoned hx
    generalize hn : Config.pageWords = n at hexec
    exact ⟨_, hexec, rfl, fun i hi => writeWords_get_page s.ac g page w.bytes (hn ▸ hi),
      fun a ha => writeWords_get_other s.ac g page n a _ (hn ▸ ha)⟩

end Sys2Proof.Proofs.Recording
end

section

namespace Sys2Proof.Proofs.Recording

open Sys2Proof Sys2Proof.Machine

/-!
# The page of a closed tick (R137, R140, R141, R143)

A chunk is its header, its proxy area and its caption area, 1,024 bytes whatever the state; the page is the eight chunks in feed order.
-/

/-! ## Bytes -/

theorem beBytes_one (n : Nat) : beBytes 1 n = [BitVec.ofNat 8 n] := by simp [beBytes]

theorem beBytes_length (w n : Nat) : (beBytes w n).length = w := by
  induction w with
  | zero => rfl
  | succ w ih => exact congrArg (· + 1) ih

theorem padTo_length (n : Nat) (bs : List Byte) : (padTo n bs).length = n := by
  rw [padTo, List.length_take, List.length_append, List.length_replicate]
  omega

theorem padTo_of_le {n : Nat} {bs : List Byte} (h : bs.length ≤ n) : padTo n bs = bs ++ List.replicate (n - bs.length) 0 := by
  refine List.take_of_length_le ?_
  rw [List.length_append, List.length_replicate]
  omega

/-- What is cut from the first of two pieces does not see the second. -/
theorem take_drop_append {α : Type} (xs ys : List α) {o n : Nat} (h : o + n ≤ xs.length) :
    ((xs ++ ys).drop o).take n = (xs.drop o).take n := by
  rw [List.drop_append_of_le_length (by omega), List.take_append_of_le_length]
  rw [List.length_drop]
  omega

/-- The pieces from number `k` on of a list of pieces that are all `n` long. -/
theorem drop_flatten_of_length {α : Type} {n : Nat} {pieces : List (List α)} (h : ∀ x ∈ pieces, x.length = n) (k : Nat) :
    pieces.flatten.drop (n * k) = (pieces.drop k).flatten := by
  induction k generalizing pieces with
  | zero => rfl
  | succ k ih =>
    cases pieces with
    | nil => simp
    | cons x xs =>
      have hx : n * (k + 1) = x.length + n * k := by rw [h x List.mem_cons_self, Nat.mul_succ, Nat.add_comm]
      rw [List.flatten_cons, hx, ← List.drop_drop, List.drop_left, ih fun y hy => h y (List.mem_cons_of_mem x hy)]
      rfl

/-! ## A chunk and the page -/

section chunk

variable (s : State) (f : Feed) (c : Nat)

theorem captionTagBytes_length (x : CaptionState) : (captionTagBytes x).length = 3 := by
  cases x <;> rfl

theorem chunkHeader_length (r : Option TickRecord) : (chunkHeader s f c r).length = 32 := by
  simp only [chunkHeader, beSigned, List.length_append, beBytes_length, captionTagBytes_length, List.length_replicate]

theorem proxyArea_length (broken : Bool) (x : Encoder) : (proxyArea broken x).length = 800 := by
  cases broken
  · exact padTo_length 800 x.codes
  · exact List.length_replicate

theorem chunkBytes_length : (chunkBytes s f c).length = 1024 := by
  simp only [chunkBytes, List.length_append, chunkHeader_length, proxyArea_length, padTo_length, Config.captionAreaBytes]

theorem chunkBytes_header : (chunkBytes s f c).take 32 = chunkHeader s f c (recordAt (s.fiu.history.get f) c) := by
  rw [chunkBytes, List.append_assoc]
  exact List.take_left' (chunkHeader_length s f c _)

theorem chunkBytes_proxy :
    ((chunkBytes s f c).drop 32).take 800 = proxyArea (s.fiu.broken.get f) (s.rc.encoders.get f) := by
  rw [chunkBytes, List.append_assoc, List.drop_left' (chunkHeader_length s f c _)]
  exact List.take_left' (proxyArea_length _ _)

theorem chunkBytes_captions : ((chunkBytes s f c).drop 832).take 192 = padTo 192 (s.rc.captions.get f).bytes := by
  have hfront : (chunkHeader s f c (recordAt (s.fiu.history.get f) c) ++ proxyArea (s.fiu.broken.get f) (s.rc.encoders.get f)).length =
      832 := by rw [List.length_append, chunkHeader_length, proxyArea_length]
  rw [chunkBytes, List.drop_left' hfront]
  exact List.take_of_length_le (padTo_length _ _).le

theorem mem_chunks_length {x : List Byte} (h : x ∈ allFeeds.map (fun f => chunkBytes s f c)) : x.length = 1024 := by
  obtain ⟨f, -, rfl⟩ := List.mem_map.mp h
  exact chunkBytes_length s f c

theorem pageBytes_length : (pageBytes s c).length = 8192 := by
  rw [pageBytes, List.length_flatten, List.map_map]
  simp only [Function.comp_def, chunkBytes_length]
  rfl

theorem allFeeds_drop : ∀ f : Feed, allFeeds.drop f.val = f :: allFeeds.drop (f.val + 1) := by decide

/-- A part of feed f's chunk stands at its own offset from byte 1,024 f of the page. -/
theorem pageBytes_part {o n : Nat} (h : o + n ≤ 1024) :
    ((pageBytes s c).drop (1024 * f.val + o)).take n = ((chunkBytes s f c).drop o).take n := by
  rw [← List.drop_drop, pageBytes, drop_flatten_of_length fun x hx => mem_chunks_length s c hx, ← List.map_drop, allFeeds_drop,
    List.map_cons, List.flatten_cons]
  exact take_drop_append _ _ (h.trans (chunkBytes_length s f c).ge)

end chunk

/-! ## The header's bytes -/

section header

variable (s : State) (f : Feed)

theorem headerFlags_eq : headerFlags s f =
    (if (s.fiu.lanes.get f).locked = true then 1 else 0) + (if s.fiu.broken.get f = false then 2 else 0)
      + (if (s.rc.captions.get f).truncated = true then 4 else 0) + (if (s.cc.feeds.get f).carriage = true then 8 else 0)
      + 16 * captionCode (s.cc.feeds.get f).state := by
  have htwo (b : Bool) (n : Nat) : n * b.toNat = if b = true then n else 0 := by cases b <;> simp
  have hone (b : Bool) : b.toNat = if b = true then 1 else 0 := by cases b <;> rfl
  unfold headerFlags
  rw [hone, htwo, htwo, htwo]
  simp only [Bool.not_eq_true']

theorem settingByte_eq (x : FeedSetting) : layoutCode x.layout + 128 * x.enabled.toNat =
    (match x.layout with | .mono => 1 | .stereo => 2 | .surround => 3) + (if x.enabled = true then 128 else 0) := by
  obtain ⟨layout, enabled⟩ := x
  cases layout <;> cases enabled <;> rfl

theorem momentaryOf_find (history : List TickRecord) (c : Nat) :
    momentaryOf (recordAt history c) =
      match history.find? (fun q => decide (q.tick = c)) with | some q => lv q.blockEnergy | none => -999 := by
  unfold recordAt
  cases history.find? (fun q => decide (q.tick = c)) <;> rfl

theorem captionCode_spec (x : CaptionState) : match x with
    | .clear => captionCode x = 0 ∧ captionTagBytes x = [0, 0, 0]
    | .shown g => captionCode x = 1 ∧ captionTagBytes x = [g.a, g.b, g.c]
    | .stale => captionCode x = 2 ∧ captionTagBytes x = [0, 0, 0] := by
  cases x <;> exact ⟨rfl, rfl⟩

end header

/-! ## The close -/

section close

variable (s : State)

theorem handOverAt_frame (c : Nat) : ∃ su sg, s.handOverAt c = (s.withSu su).withSg sg := by
  unfold State.handOverAt
  split
  · exact ⟨_, _, rfl⟩
  · exact ⟨s.su, s.sg, rfl⟩

theorem scrubChoice_frame : ∃ ac, s.scrubChoice = s.withAc ac := by
  unfold State.scrubChoice
  split
  · split
    · exact ⟨s.ac, rfl⟩
    · exact ⟨_, rfl⟩
  · exact ⟨s.ac, rfl⟩

/-- The histories with the records of the tick that closes (R8, R15). -/
def closedHistory : Oct (List TickRecord) := ((s.captionsAtClose s.fiu.openTick).closeRecords s.fiu.openTick).fiu.history

/-- The state whose page is assembled: captions and records of the tick are closed (R8, R40, R41). -/
def atPage : State := { s with
  fiu := { s.fiu with history := closedHistory s }, cc := ⟨s.cc.feeds.map (fun x => x.atClose s.fiu.openTick)⟩ }

theorem closeRecords_captionsAtClose : (s.captionsAtClose s.fiu.openTick).closeRecords s.fiu.openTick = atPage s := by
  unfold atPage closedHistory State.closeRecords
  split <;> rfl

/-- While RECORDING the page of the tick is requested last (R143). -/
theorem requestWrite_eq (c : Nat) : s.requestWrite c = s.withRc
    { s.rc with writes := s.rc.writes ++ (if s.ac.state = .recording then [⟨c, pageBytes s c, false⟩] else []) } := by
  unfold State.requestWrite
  split
  · rfl
  · rw [List.append_nil]
    rfl

/-- A lapse touches nothing that a page shows. -/
theorem atPage_lapse : atPage s.lapse =
    { atPage s with su := s.lapse.su, sg := s.lapse.sg, iu := s.lapse.iu, li := s.lapse.li } := by
  have hhistory : closedHistory s.lapse = closedHistory s := by
    unfold closedHistory State.closeRecords
    have hif : (s.lapse.captionsAtClose s.lapse.fiu.openTick).fiu.baseTick ≤ s.lapse.fiu.openTick ↔
      (s.captionsAtClose s.fiu.openTick).fiu.baseTick ≤ s.fiu.openTick := Iff.rfl
    by_cases h : (s.captionsAtClose s.fiu.openTick).fiu.baseTick ≤ s.fiu.openTick
    · rw [if_pos h, if_pos (hif.mpr h)]
      rfl
    · rw [if_neg h, if_neg (mt hif.mp h)]
      rfl
  unfold atPage
  rw [hhistory]
  rfl

/-- What the close of a tick leaves of the Recorder, the histories and the captions: the opening's fresh buffers, and the records and captions the page saw. -/
structure ClosedFrom (s t : State) : Prop where
  rc : t.rc = { s.rc with
    encoders := Oct.fill ⟨0, []⟩
    captions := Oct.fill ⟨[], 0, false⟩
    writes := s.rc.writes ++ (if s.ac.state = .recording then [⟨s.fiu.openTick, pageBytes (atPage s) s.fiu.openTick, false⟩] else []) }
  history : t.fiu.history = closedHistory s
  cc : t.cc = ⟨(atPage s).cc.feeds.map CaptionFeed.gatherAfresh⟩

/-- What comes after the page touches none of these. -/
theorem closedFrom_afterPage {u : State} (c : Nat) (xbsy : Bool) (hu : ClosedFrom s u) :
    ClosedFrom s (let y := u.handOverAt c
      let z := (y.withSu y.su.timerAtClose).scrubChoice
      z.withXu (z.xu.timerAtClose xbsy)) := by
  obtain ⟨su, sg, hhand⟩ := handOverAt_frame u c
  rw [hhand]
  obtain ⟨ac, hscrub⟩ := scrubChoice_frame (((u.withSu su).withSg sg).withSu ((u.withSu su).withSg sg).su.timerAtClose)
  simp only
  rw [hscrub]
  exact ⟨hu.rc, hu.history, hu.cc⟩

theorem closedFrom_opened : ClosedFrom s (((atPage s).requestWrite s.fiu.openTick).openTick) := by
  rw [requestWrite_eq]
  exact ⟨rfl, rfl, rfl⟩

theorem closedFrom_opened_lapse : ClosedFrom s (((atPage s.lapse).requestWrite s.fiu.openTick).openTick) := by
  rw [atPage_lapse, requestWrite_eq]
  exact ⟨rfl, rfl, rfl⟩

theorem closeTick_closedFrom (xbsy : Bool) (hstall : s.xu.stallDue = false) : ClosedFrom s (closeTick s xbsy) := by
  unfold closeTick
  rcases Schedule.lapseFirst_cases s with h | h
  · have hlapse : s.lapse.xu.stallDue = false := hstall
    simp only [h, State.stallFirst_of_none hlapse, closeRecords_captionsAtClose]
    exact closedFrom_afterPage s _ xbsy (closedFrom_opened_lapse s)
  · simp only [h, State.stallFirst_of_none hstall, closeRecords_captionsAtClose]
    exact closedFrom_afterPage s _ xbsy (closedFrom_opened s)

theorem gatherAfresh_frame (x : CaptionFeed) : x.gatherAfresh.state = x.state ∧ x.gatherAfresh.carriage = x.carriage := by
  unfold CaptionFeed.gatherAfresh
  split <;> exact ⟨rfl, rfl⟩

end close

/-- Settles O32: the close requests `pageBytes` of `atPage`, and each of its parts is the chunk's (`pageBytes_part`). -/
theorem tickCloseRequestsThePage : Obligations.TickCloseRequestsThePage := by
  unfold Obligations.TickCloseRequestsThePage
  intro xbsy s hfull hstall
  obtain ⟨hrc, hhistory, hcc⟩ := closeTick_closedFrom s xbsy hstall
  refine ⟨_, Schedule.exec_tickClose xbsy hfull, fun hidle => ?_, fun hrec => ⟨pageBytes (atPage s) s.fiu.openTick, ?_,
    pageBytes_length _ _, fun f => ?_⟩, fun f => ?_⟩
  · rw [hrc, if_neg hidle, List.append_nil]
  · rw [hrc, if_pos hrec]
  · have hpart {o n : Nat} (h : o + n ≤ 1024) := pageBytes_part (atPage s) f s.fiu.openTick h
    obtain ⟨hstate, hcarriage⟩ : ((closeTick s xbsy).cc.feeds.get f).state = ((atPage s).cc.feeds.get f).state ∧
        ((closeTick s xbsy).cc.feeds.get f).carriage = ((atPage s).cc.feeds.get f).carriage := by
      rw [hcc, Oct.get_map]
      exact gatherAfresh_frame _
    rw [hstate, hcarriage, hhistory]
    refine ⟨_, _, _, ?header, captionCode_spec _, momentaryOf_find _ _, fun hbroken => ?_, fun hwhole hcodes => ?_, fun hfits => ?_⟩
    case header =>
      have hzero : 1024 * f.val = 1024 * f.val + 0 := rfl
      rw [hzero, hpart (by decide), List.drop_zero, chunkBytes_header, chunkHeader, headerFlags_eq, settingByte_eq]
      simp only [beBytes_one, List.append_assoc]
      rfl
    · rw [hpart (by decide), chunkBytes_proxy]
      exact (congrArg (proxyArea · _) hbroken).trans rfl
    · rw [hpart (by decide), chunkBytes_proxy]
      refine (congrArg (proxyArea · _) hwhole).trans ((padTo_of_le hcodes.le).trans ?_)
      rw [hcodes]
      exact List.append_nil _
    · rw [hpart (by decide), chunkBytes_captions]
      exact padTo_of_le hfits
  · rw [hrc]
    exact ⟨Oct.get_fill _ f, Oct.get_fill _ f⟩

end Sys2Proof.Proofs.Recording
end

section

namespace Sys2Proof.Proofs.Recording

open Sys2Proof Sys2Proof.Machine

/-!
# The writer (R143 to R145, R147, R149, R164, R171)

A grant goes through the page search, the eviction and the room check; each has its lemmas here, and the grant ends in one of three ways:
no page, the write granted, the step undone.
-/

/-! ## The page search (R144) -/

section search

variable {s : State} {p : Nat}

theorem isHeld_iff (holds : List (Nat × Hold)) (t : Nat) : isHeld holds t = true ↔ ∃ e ∈ holds, e.2.first ≤ t ∧ t ≤ e.2.last := by
  simp [isHeld]

theorem runHeld_iff (holds : List (Nat × Hold)) (a b : Nat) :
    runHeld holds a b = true ↔ ∃ e ∈ holds, e.2.first ≤ b ∧ a ≤ e.2.last := by
  simp [runHeld]

theorem pageState_healthy_iff (ac : Ac) (p : Nat) :
    ac.pageState p = .healthy ↔ ∃ g, ac.bank[p / 524288]? = some g ∧ (ac.groups.get g).state = .healthy := by
  have hgroup : ac.groupAt p = ac.bank[p / 524288]? := rfl
  unfold Ac.pageState
  rw [hgroup]
  cases ac.bank[p / 524288]? with
  | none => exact ⟨nofun, nofun⟩
  | some g => exact ⟨fun h => ⟨g, rfl, h⟩, fun ⟨_, hg, h⟩ => Option.some.inj hg ▸ h⟩

theorem writable_iff : s.writable p = true ↔ ∃ g, s.ac.bank[p / 524288]? = some g ∧ (s.ac.groups.get g).state = .healthy ∧
    ∀ u, storedTick s.rc.spans p = some u → ∀ e ∈ s.ru.holds, ¬ (e.2.first ≤ u ∧ u ≤ e.2.last) := by
  unfold State.writable
  rw [Bool.and_eq_true, decide_eq_true_iff, pageState_healthy_iff]
  cases storedTick s.rc.spans p with
  | none => simp
  | some t =>
    have hheld : (!isHeld s.ru.holds t) = true ↔ ∀ e ∈ s.ru.holds, ¬ (e.2.first ≤ t ∧ t ≤ e.2.last) := by
      simp only [Bool.not_eq_true', ← Bool.not_eq_true, isHeld_iff, not_exists, not_and]
    simp only [hheld, Option.some.injEq, forall_eq', ← and_assoc, exists_and_right]

/-- A page of a group in the bank is installed. -/
theorem lt_installed_of_group {ac : Ac} {g : Group} (h : ac.bank[p / 524288]? = some g) : p < 524288 * ac.bank.length := by
  have := (List.getElem?_eq_some_iff.mp h).1
  omega

/-- The search takes the first page that passes, from its start round. -/
theorem searchFrom_first {ok : Nat → Bool} {start size k : Nat} (hk : k < size) (hok : ok ((start + k) % size) = true) (n : Nat)
    (hn : n ≤ size) (hreach : size - n ≤ k) (hskip : ∀ j, size - n ≤ j → j < k → ok ((start + j) % size) ≠ true) :
    searchFrom ok start size n = some ((start + k) % size) := by
  induction n with
  | zero => omega
  | succ n ih =>
    unfold searchFrom
    by_cases hhere : size - (n + 1) = k
    · rw [hhere, if_pos hok]
    · rw [if_neg (hskip _ (Nat.le_refl _) (by omega))]
      exact ih (by omega) (by omega) fun j hj => hskip j (by omega)

theorem searchPage_first {k : Nat} (hk : k < 524288 * s.ac.bank.length)
    (hp : p = (s.rc.writePos + k) % (524288 * s.ac.bank.length)) (hok : s.writable p = true)
    (hskip : ∀ j, j < k → s.writable ((s.rc.writePos + j) % (524288 * s.ac.bank.length)) ≠ true) : s.searchPage = some p := by
  subst hp
  have hinstalled : s.ac.installed = 524288 * s.ac.bank.length := rfl
  exact searchFrom_first hk hok _ (Nat.le_refl _) (by omega) fun j _ hj => hskip j hj

theorem searchPage_none (h : ∀ p, p < 524288 * s.ac.bank.length → s.writable p ≠ true) : s.searchPage = none := by
  cases hsearch : s.searchPage with
  | none => rfl
  | some p =>
    have hsize : 0 < s.ac.installed := by
      refine Nat.pos_of_ne_zero fun h0 => ?_
      rw [State.searchPage, h0] at hsearch
      cases hsearch
    obtain ⟨hok, hlt⟩ := searchFrom_some hsearch hsize
    exact absurd hok (h p hlt)

theorem searchPage_writable (h : s.searchPage = some p) : s.writable p = true := by
  refine (searchFrom_some h (Nat.pos_of_ne_zero fun h0 => ?_)).1
  rw [State.searchPage, h0] at h
  cases h

end search

/-! ## Eviction and growth (R145, R146) -/

section eviction

variable {p : Nat}

theorem evict_append (xs ys : List Span) (p : Nat) : evict (xs ++ ys) p = evict xs p ++ evict ys p := by
  simp only [evict, List.map_append, List.flatten_append]

theorem evict_of_free {spans : List Span} (h : ∀ x ∈ spans, x.hasPage p ≠ true) : evict spans p = spans := by
  induction spans with
  | nil => rfl
  | cons x xs ih =>
    have hx : evict (x :: xs) p = [x] ++ evict xs p := by
      simp only [evict, List.map_cons, List.flatten_cons, if_neg (h x List.mem_cons_self)]
    rw [hx, ih fun y hy => h y (List.mem_cons_of_mem x hy)]
    rfl

/-- Only the span of the page is cut. -/
theorem evict_of_stored {a b : List Span} {x : Span} (hx : x.hasPage p = true) (hab : ∀ y ∈ a ++ b, y.hasPage p ≠ true) :
    evict (a ++ x :: b) p = a ++ (x.without p ++ b) := by
  have hcut : evict (x :: b) p = x.without p ++ evict b p := by
    simp only [evict, List.map_cons, List.flatten_cons, if_pos hx]
  rw [evict_append, hcut, evict_of_free fun y hy => hab y (List.mem_append_left b hy),
    evict_of_free fun y hy => hab y (List.mem_append_right a hy)]

theorem without_eq {x : Span} (hx : x.firstPage ≤ p ∧ p < x.firstPage + x.length) : x.without p =
    (if x.firstPage = p then [] else [⟨x.firstTick, x.firstPage, p - x.firstPage⟩]) ++
      (if p + 1 = x.firstPage + x.length then []
        else [⟨x.firstTick + (p - x.firstPage) + 1, p + 1, x.length - (p - x.firstPage) - 1⟩]) := by
  unfold Span.without
  congr 1
  · by_cases h : x.firstPage = p
    · rw [if_pos h, if_neg (by omega)]
    · rw [if_neg h, if_pos (by omega)]
  · by_cases h : p + 1 = x.firstPage + x.length
    · rw [if_pos h, if_neg (by omega)]
    · rw [if_neg h, if_pos (by omega)]

/-- The span of a page, where the others do not store it. -/
theorem find_hasPage {a b : List Span} {x : Span} (hx : x.hasPage p = true) (hab : ∀ y ∈ a ++ b, y.hasPage p ≠ true) :
    (a ++ x :: b).find? (fun y => y.hasPage p) = some x := by
  rw [List.find?_append, List.find?_eq_none.mpr fun y hy => hab y (List.mem_append_left b hy), Option.none_or]
  exact List.find?_cons_of_pos hx

theorem willGrow_iff (spans : List Span) (c p : Nat) :
    willGrow spans c p = true ↔ ∃ x, spans.getLast? = some x ∧ p = x.firstPage + x.length ∧ c = x.firstTick + x.length := by
  unfold willGrow
  cases spans.getLast? with
  | none => exact ⟨nofun, nofun⟩
  | some x => simp only [Span.growsBy_iff, Option.some.injEq, exists_eq_left']

/-- The Span List `spans` is that of `old` after the tick on page `p` has left its span, which shrinks, splits or goes (R145). -/
theorem evict_eq {old left right spans : List Span}
    (h : (∀ x ∈ old, ¬ (x.firstPage ≤ p ∧ p < x.firstPage + x.length)) ∧ spans = old ∨
      ∃ a x b, old = a ++ x :: b ∧ x.firstPage ≤ p ∧ p < x.firstPage + x.length ∧
        (∀ y ∈ a ++ b, ¬ (y.firstPage ≤ p ∧ p < y.firstPage + y.length)) ∧ spans = a ++ (left ++ (right ++ b)) ∧
        left = (if x.firstPage = p then [] else [⟨x.firstTick, x.firstPage, p - x.firstPage⟩]) ∧
        right = (if p + 1 = x.firstPage + x.length then []
          else [⟨x.firstTick + (p - x.firstPage) + 1, p + 1, x.length - (p - x.firstPage) - 1⟩])) :
    evict old p = spans ∧ ∀ o ∈ old, o.hasPage p = true → old.find? (fun y => y.hasPage p) = some o := by
  rcases h with ⟨hfree, rfl⟩ | ⟨a, x, b, rfl, hlow, hhigh, hothers, rfl, rfl, rfl⟩
  · have hno : ∀ x ∈ spans, x.hasPage p ≠ true := fun x hx => by
      rw [Ne, Span.hasPage_iff]
      exact hfree x hx
    exact ⟨evict_of_free hno, fun o ho hpage => absurd hpage (hno o ho)⟩
  · have hx : x.hasPage p = true := (Span.hasPage_iff x p).mpr ⟨hlow, hhigh⟩
    have hab : ∀ y ∈ a ++ b, y.hasPage p ≠ true := fun y hy => by
      rw [Ne, Span.hasPage_iff]
      exact hothers y hy
    refine ⟨?_, fun o ho hpage => ?_⟩
    · rw [evict_of_stored hx hab, without_eq ⟨hlow, hhigh⟩, List.append_assoc]
    · obtain rfl : o = x := by
        rcases List.mem_append.mp ho with ha | hxb
        · exact absurd hpage (hab o (List.mem_append_left b ha))
        · rcases List.mem_cons.mp hxb with rfl | hb
          · rfl
          · exact absurd hpage (hab o (List.mem_append_right a hb))
      exact find_hasPage hx hab

end eviction

/-! ## The room check (R147) -/

section room

variable {holds : List (Nat × Hold)} {grows : Bool} {spans dropped : List Span}

theorem hasRoom_iff : hasRoom grows spans = true ↔ spans.length + (if grows then 0 else 1) ≤ 512 := by
  unfold hasRoom
  rw [decide_eq_true_iff]
  cases grows <;> exact Iff.rfl

theorem roomFor_enough (h : hasRoom grows spans = true) (n : Nat) : roomFor holds grows n spans dropped = ⟨spans, dropped, true⟩ := by
  cases n with
  | zero => rw [roomFor, h]
  | succ n => exact if_pos h

theorem roomFor_stuck (h : hasRoom grows spans ≠ true) (hnone : discardable holds grows spans = none) (n : Nat) :
    roomFor holds grows n spans dropped = ⟨spans, dropped, false⟩ := by
  cases n with
  | zero => rw [roomFor, Bool.eq_false_of_not_eq_true h]
  | succ n => rw [roomFor, if_neg h, hnone]

theorem roomFor_discard {x : Span} (h : hasRoom grows spans ≠ true) (hx : discardable holds grows spans = some x) (n : Nat) :
    roomFor holds grows (n + 1) spans dropped = roomFor holds grows n (spans.erase x) (x :: dropped) := by
  rw [roomFor, if_neg h, hx]

/-- Whether a span holds a held tick. -/
def spanHeld (holds : List (Nat × Hold)) (x : Span) : Prop :=
  ∃ e ∈ holds, e.2.first ≤ x.firstTick + x.length - 1 ∧ x.firstTick ≤ e.2.last

theorem runHeld_span (holds : List (Nat × Hold)) (x : Span) : runHeld holds x.firstTick x.lastTick = true ↔ spanHeld holds x :=
  runHeld_iff _ _ _

theorem discardable_none (h : ∀ y ∈ (if grows then spans.dropLast else spans), spanHeld holds y) :
    discardable holds grows spans = none :=
  List.find?_eq_none.mpr fun y hy => by rw [(runHeld_span holds y).mpr (h y hy)]; decide

/-- The oldest span that holds no held tick goes first, the growing one excepted. -/
theorem discardable_first {a b : List Span} {x : Span} (ha : ∀ y ∈ a, spanHeld holds y) (hx : ¬ spanHeld holds x)
    (hb : grows = true → b ≠ []) : discardable holds grows (a ++ x :: b) = some x := by
  have hspans : ∃ rest, (if grows then (a ++ x :: b).dropLast else a ++ x :: b) = a ++ x :: rest := by
    cases grows with
    | false => exact ⟨b, rfl⟩
    | true =>
      refine ⟨b.dropLast, (List.dropLast_append_of_ne_nil (List.cons_ne_nil x b)).trans ?_⟩
      rw [List.dropLast_cons_of_ne_nil (hb rfl)]
  obtain ⟨rest, hrest⟩ := hspans
  unfold discardable
  rw [hrest, List.find?_append, List.find?_eq_none.mpr, Option.none_or]
  · refine List.find?_cons_of_pos ?_
    rw [Bool.not_eq_true', ← Bool.not_eq_true, runHeld_span]
    exact hx
  · intro y hy
    rw [(runHeld_span holds y).mpr (ha y hy)]
    decide

theorem erase_discarded {a b : List Span} {x : Span} (ha : ∀ y ∈ a, spanHeld holds y) (hx : ¬ spanHeld holds x) :
    (a ++ x :: b).erase x = a ++ b := by
  rw [List.erase_append_right _ fun hmem => hx (ha x hmem), List.erase_cons_head]

/-- One span makes room where one is too many. -/
theorem roomFor_one {a b : List Span} {x : Span} (hlen : (a ++ x :: b).length + (if grows then 0 else 1) = 513)
    (hb : grows = true → b ≠ []) (ha : ∀ y ∈ a, spanHeld holds y) (hx : ¬ spanHeld holds x) :
    roomFor holds grows (a ++ x :: b).length (a ++ x :: b) [] = ⟨a ++ b, [x], true⟩ := by
  have hsize : (a ++ x :: b).length = (a ++ b).length + 1 := by
    simp only [List.length_append, List.length_cons, Nat.add_assoc]
  have hfull : hasRoom grows (a ++ x :: b) ≠ true := by
    rw [Ne, hasRoom_iff]
    omega
  rw [hsize, roomFor_discard hfull (discardable_first ha hx hb), erase_discarded ha hx]
  exact roomFor_enough (hasRoom_iff.mpr (by omega)) _

/-- One span is discarded and no other can be, where two are too many. -/
theorem roomFor_two {a b : List Span} {x : Span} (hlen : (a ++ x :: b).length + (if grows then 0 else 1) = 514)
    (hheld : ∀ y ∈ (if grows then (a ++ b).dropLast else a ++ b), spanHeld holds y) (hb : grows = true → b ≠ [])
    (hx : ¬ spanHeld holds x) :
    roomFor holds grows (a ++ x :: b).length (a ++ x :: b) [] = ⟨a ++ b, [x], false⟩ := by
  have ha : ∀ y ∈ a, spanHeld holds y := by
    intro y hy
    refine hheld y ?_
    cases grows with
    | false => exact List.mem_append_left b hy
    | true =>
      rw [if_pos rfl, List.dropLast_append_of_ne_nil (hb rfl)]
      exact List.mem_append_left _ hy
  have hsize : (a ++ x :: b).length = (a ++ b).length + 1 := by
    simp only [List.length_append, List.length_cons, Nat.add_assoc]
  have hfull : hasRoom grows (a ++ x :: b) ≠ true := by
    rw [Ne, hasRoom_iff]
    omega
  rw [hsize, roomFor_discard hfull (discardable_first ha hx hb), erase_discarded ha hx]
  refine roomFor_stuck ?_ (discardable_none hheld) _
  rw [Ne, hasRoom_iff]
  omega

/-- Nothing is restored but what was not discarded: with no span discarded, the Span List stands. -/
theorem undone_of_none (spans : List Span) (p : Nat) {kept : List Span} (h : kept = evict spans p) (enough : Bool) :
    undone spans p ⟨kept, [], enough⟩ = spans := by
  unfold undone
  cases hfind : spans.find? (fun x => x.hasPage p) with
  | some x => simp
  | none => exact h.trans (evict_of_free (List.find?_eq_none.mp hfind))

end room

/-! ## The grant -/

section grant

variable {s : State} {w : PageWrite} {rest : List PageWrite} {p : Nat} {g : Group}

/-- An unrecorded tick is reported once a run (R149). -/
theorem unrecorded_eq (s : State) (c : Nat) : s.unrecorded c = { s with
    rc := { s.rc with stall := true }
    iu := { s.iu with reports := s.iu.reports ++
      (if s.rc.stall = true then [] else [⟨.recordStall, none, none, none, none, c, c, c, none, none, false⟩]) } } := by
  rw [(s.unrecorded_frame c).2]
  unfold State.unrecorded
  by_cases h : s.rc.stall = true
  · rw [if_pos h, if_pos h, List.append_nil]
  · rw [if_neg h, if_neg h]
    rfl

/-- The state once a waiting page write has been taken from the list. -/
def writeTaken (s : State) (rest : List PageWrite) : State := s.withRc { s.rc with writes := rest }

theorem exec_grant_noPage (ha : s.ac.access = none) (hw : s.rc.writes = w :: rest) (hsearch : s.searchPage = none) :
    exec .recordWriteGrant s = .next ((writeTaken s rest).unrecorded w.tick) := by
  have hsearch' : (writeTaken s rest).searchPage = none := hsearch
  unfold writeTaken at hsearch' ⊢
  change execRecordWriteGrant s = _
  simp only [execRecordWriteGrant, ha, hw, grantWrite, hsearch']

theorem exec_grant_page (ha : s.ac.access = none) (hw : s.rc.writes = w :: rest) (hsearch : s.searchPage = some p)
    (hg : s.ac.bank[p / 524288]? = some g) :
    exec .recordWriteGrant s = .next (writeStep (writeTaken s rest) w p g) := by
  have hsearch' : (writeTaken s rest).searchPage = some p := hsearch
  have hg' : (writeTaken s rest).ac.groupAt p = some g := hg
  unfold writeTaken at hsearch' hg' ⊢
  change execRecordWriteGrant s = _
  simp only [execRecordWriteGrant, ha, hw, grantWrite, hsearch', hg']

/-- What the room check of a write of tick `c` to page `p` comes to. -/
def roomOf (s : State) (c p : Nat) : Room :=
  roomFor s.ru.holds (willGrow (evict s.rc.spans p) c p) (evict s.rc.spans p).length (evict s.rc.spans p) []

theorem writeStep_granted (hp : p < 524288 * s.ac.bank.length) {kept dropped : List Span} (hr : roomOf s w.tick p = ⟨kept, dropped, true⟩) :
    writeStep s w p g = { s with
      rc := { s.rc with
        spans := kept, discarded := min (s.rc.discarded + dropped.length) 4294967295
        writePos := if p + 1 = 524288 * s.ac.bank.length then 0 else p + 1 }
      ac := { s.ac with
        access := some ⟨.record w p, g, p % 524288, false⟩
        damaged := s.ac.damaged.filter (fun e => (pageOf kept e.2).isSome) } } := by
  have hpos : pageAfter s.ac.installed p = if p + 1 = 524288 * s.ac.bank.length then 0 else p + 1 := by
    have hinstalled : s.ac.installed = 524288 * s.ac.bank.length := rfl
    unfold pageAfter
    rw [hinstalled]
    by_cases h : p + 1 = 524288 * s.ac.bank.length
    · rw [if_pos h, if_neg (by omega)]
    · rw [if_neg h, if_pos (by omega)]
  unfold roomOf at hr
  unfold writeStep
  simp only [hr, if_true]
  rw [← hpos]
  rfl

theorem writeStep_undone {kept dropped : List Span} (hr : roomOf s w.tick p = ⟨kept, dropped, false⟩) :
    writeStep s w p g = (s.withSpans (undone s.rc.spans p ⟨kept, dropped, false⟩) dropped.length).unrecorded w.tick := by
  unfold roomOf at hr
  unfold writeStep
  simp only [hr]
  rfl

/-- A grant starts a write to a writable page, or none and the tick is unrecorded. -/
theorem exec_grant_safe (ha : s.ac.access = none) (hw : s.rc.writes = w :: rest) :
    ∃ t, exec .recordWriteGrant s = .next t ∧ t.rc.writes = rest ∧
      (t.ac.access = none → t.rc.writePos = s.rc.writePos ∧ t.rc.stall = true) ∧
      (∀ x, t.ac.access = some x → ∃ p g, x = ⟨.record w p, g, p % 524288, false⟩ ∧ p < 524288 * s.ac.bank.length ∧
        s.ac.bank[p / 524288]? = some g ∧ (s.ac.groups.get g).state = .healthy ∧
        (∀ u, storedTick s.rc.spans p = some u → ∀ e ∈ s.ru.holds, ¬ (e.2.first ≤ u ∧ u ≤ e.2.last)) ∧
        t.rc.writePos = (if p + 1 = 524288 * s.ac.bank.length then 0 else p + 1)) ∧
      t.ru = s.ru ∧ t.fiu = s.fiu ∧ t.su = s.su ∧ t.sg = s.sg ∧ t.xu = s.xu ∧ t.li = s.li ∧ t.ac.dram = s.ac.dram := by
  have hnot {x : Access} : s.ac.access ≠ some x := by
    rw [ha]
    nofun
  cases hsearch : s.searchPage with
  | none =>
    refine ⟨_, exec_grant_noPage ha hw hsearch, ?_⟩
    rw [unrecorded_eq]
    exact ⟨rfl, fun _ => ⟨rfl, rfl⟩, fun x hx => absurd hx hnot, rfl, rfl, rfl, rfl, rfl, rfl, rfl⟩
  | some p =>
    obtain ⟨g, hg, hhealthy, hheld⟩ := writable_iff.mp (searchPage_writable hsearch)
    have hp := lt_installed_of_group hg
    refine ⟨_, exec_grant_page ha hw hsearch hg, ?_⟩
    obtain ⟨⟨kept, dropped, enough⟩, hr⟩ : ∃ r, roomOf (writeTaken s rest) w.tick p = r := ⟨_, rfl⟩
    cases enough with
    | true =>
      rw [writeStep_granted (s := writeTaken s rest) hp hr]
      exact ⟨rfl, nofun, fun x hx => ⟨p, g, (Option.some.inj hx).symm, hp, hg, hhealthy, hheld, rfl⟩, rfl, rfl, rfl, rfl, rfl, rfl, rfl⟩
    | false =>
      rw [writeStep_undone hr, unrecorded_eq]
      exact ⟨rfl, fun _ => ⟨rfl, rfl⟩, fun x hx => absurd hx hnot, rfl, rfl, rfl, rfl, rfl, rfl, rfl⟩

end grant

/-- Settles O49: `exec_grant_safe`, and the grant by what the search and the room check come to. -/
theorem writerSparesHeldPages : Obligations.WriterSparesHeldPages := by
  unfold Obligations.WriterSparesHeldPages
  refine ⟨fun s w rest ha hw => exec_grant_safe ha hw, fun s w rest writable ha hw hwritable => ⟨fun hnone => ?_, ?_⟩⟩
  · have hno : ∀ p, p < 524288 * s.ac.bank.length → s.writable p ≠ true := fun p hp hok =>
      hnone p hp ((hwritable p).mpr (writable_iff.mp hok))
    exact ⟨_, exec_grant_noPage ha hw (searchPage_none hno), unrecorded_eq _ _⟩
  · intro k p left right spans grows hk hp hok hskip hspans hgrows
    obtain ⟨g, hg, -⟩ := (hwritable p).mp hok
    have hinstalled := lt_installed_of_group hg
    have hsearch : s.searchPage = some p := searchPage_first hk hp (writable_iff.mpr ((hwritable p).mp hok))
      fun j hj hw => hskip j hj ((hwritable _).mpr (writable_iff.mp hw))
    have hexec := exec_grant_page ha hw hsearch hg
    obtain ⟨hevict, hfind⟩ := evict_eq hspans
    have hgrow : willGrow spans w.tick p = grows := Bool.eq_iff_iff.mpr ((willGrow_iff spans w.tick p).trans hgrows.symm)
    have hroom : roomOf (writeTaken s rest) w.tick p = roomFor s.ru.holds grows spans.length spans [] := by
      rw [← hgrow, ← hevict]
      rfl
    refine ⟨fun hlen => ?room, fun a b x hlen hx hb hheld hfree => ?one, fun a b x o hlen hx hheld hb hfree ho hlow hhigh => ?two,
      fun hlen hheld => ?stuck⟩
    case room =>
      rw [roomFor_enough (hasRoom_iff.mpr hlen)] at hroom
      rw [writeStep_granted (s := writeTaken s rest) hinstalled hroom] at hexec
      exact ⟨_, g, hexec, hg, rfl⟩
    case one =>
      have hnot : ¬ spanHeld s.ru.holds x := fun ⟨e, he, h⟩ => hfree e he h
      rw [hx, roomFor_one (hx ▸ hlen) hb hheld hnot] at hroom
      rw [writeStep_granted (s := writeTaken s rest) hinstalled hroom] at hexec
      exact ⟨_, g, hexec, hg, rfl, rfl, rfl, rfl⟩
    case two =>
      have hnot : ¬ spanHeld s.ru.holds x := fun ⟨e, he, h⟩ => hfree e he h
      rw [hx, roomFor_two (hx ▸ hlen) hheld hb hnot] at hroom
      rw [writeStep_undone hroom, unrecorded_eq] at hexec
      have hundone : undone s.rc.spans p ⟨a ++ b, [x], false⟩ =
          if o.hasTick x.firstTick = true then a ++ b else s.rc.spans.filter (fun y => !([x].contains y)) := by
        unfold undone
        rw [hfind o ho ((Span.hasPage_iff o p).mpr ⟨hlow, hhigh⟩)]
        simp only [List.any_cons, List.any_nil, Bool.or_false]
      refine ⟨_, hexec, ha, rfl, rfl, rfl, fun hin => ?_, fun hout => ?_⟩
      · exact hundone.trans (if_pos ((Span.hasTick_iff o _).mpr hin))
      · refine hundone.trans ((if_neg (mt (Span.hasTick_iff o _).mp hout)).trans ?_)
        congr 1
        funext y
        simp
    case stuck =>
      have hfull : hasRoom grows spans ≠ true := by
        rw [Ne, hasRoom_iff]
        omega
      rw [roomFor_stuck hfull (discardable_none hheld)] at hroom
      rw [writeStep_undone hroom, unrecorded_eq] at hexec
      refine ⟨_, hexec, ha, ?_, rfl⟩
      exact congrArg (fun x : List Span => { s.rc with writes := rest, spans := x, stall := true, discarded := min s.rc.discarded 4294967295 })
        (undone_of_none s.rc.spans p hevict.symm false)

end Sys2Proof.Proofs.Recording
end

section

namespace Sys2Proof.Proofs.Recording

open Sys2Proof Sys2Proof.Machine

/-!
# What an access leaves that ends in TIMEOUT (R165, R169 to R172)

The state is said once, block by block, as it stands before the group and the requester are told (`afterNotes`): the words transferred, the counts,
the capture, the damage found.
-/

/-! ## Damage found, as an equation (R171, R172) -/

section damage

/-- The Damaged Page List after a read of page `p` found `ns`. -/
def damagedAfter (s : State) (p : Nat) (ns : List Note) : List (Nat × Nat) :=
  match ns.find? (·.bad), storedTick s.rc.spans p with
  | some _, some t =>
    if s.ac.damaged.any (fun e => decide (e.1 = p)) then s.ac.damaged
    else if s.ac.damaged.length < 64 then s.ac.damaged ++ [(p, t)] else s.ac.damaged
  | _, _ => s.ac.damaged

/-- The reports a read of page `p` that found `ns` sends. -/
def damageReports (s : State) (p : Nat) (ns : List Note) : List Report :=
  match ns.find? (·.bad), storedTick s.rc.spans p with
  | some n, some t =>
    if s.ac.damaged.any (fun e => decide (e.1 = p)) then []
    else if isHeld s.ru.holds t then [damageReport n.offset (s.fiu.openTick - 1) t] else []
  | _, _ => []

theorem noteDamage_eq (s : State) (p : Nat) (ns : List Note) : s.noteDamage p ns = { s with
    ac := { s.ac with damaged := damagedAfter s p ns }
    iu := { s.iu with reports := s.iu.reports ++ damageReports s p ns } } := by
  have hnone : s = { s with
      ac := { s.ac with damaged := s.ac.damaged }, iu := { s.iu with reports := s.iu.reports ++ [] } } := by
    rw [List.append_nil]
  unfold State.noteDamage damagedAfter damageReports
  cases ns.find? (·.bad) with
  | none => exact hnone
  | some n =>
    cases storedTick s.rc.spans p with
    | none => exact hnone
    | some t =>
      simp only [State.listDamage]
      by_cases hlisted : s.ac.damaged.any (fun e => decide (e.1 = p)) = true
      · simp only [if_pos hlisted]
        exact hnone
      · have hroom : Config.damagedListSize = 64 := rfl
        simp only [if_neg hlisted, hroom]
        by_cases hlen : s.ac.damaged.length < 64 <;> by_cases hheld : isHeld s.ru.holds t = true
        · simp only [if_pos hlen, if_pos hheld]
          rfl
        · simp only [if_pos hlen, if_neg hheld, List.append_nil]
          rfl
        · simp only [if_neg hlen, if_pos hheld]
          rfl
        · simp only [if_neg hlen, if_neg hheld]
          exact hnone

end damage

/-! ## The first error of an access (R169) -/

section firstErrors

variable {quiet : Bool} {ns : List Note}

/-- A word that an access does not capture: not bad, and not corrected unless its row block is quiet. -/
def unremarkable (quiet : Bool) (n : Note) : Prop := n.bad = false ∧ (n.corrected = true → quiet = true)

theorem errorOf_unremarkable {n : Note} (h : unremarkable quiet n) :
    (if n.bad then some (n, CaptureKind.uncorrectable) else if n.corrected && !quiet then some (n, .corrected) else none) = none := by
  obtain ⟨hbad, hcorrected⟩ := h
  rw [if_neg (by rw [hbad]; decide), if_neg]
  intro hboth
  obtain ⟨hc, hq⟩ := Bool.and_eq_true_iff.mp hboth
  rw [hcorrected hc] at hq
  cases hq

theorem firstError_none (h : ∀ n ∈ ns, unremarkable quiet n) : firstError quiet ns = none :=
  List.findSome?_eq_none_iff.mpr fun n hn => errorOf_unremarkable (h n hn)

theorem firstError_first {pre post : List Note} {n : Note} (h : ∀ q ∈ pre, unremarkable quiet q) :
    firstError quiet (pre ++ n :: post) = firstError quiet (n :: post) := by
  unfold firstError
  rw [List.findSome?_append]
  exact (congrArg (Option.or · _) (firstError_none h)).trans (Option.none_or ..)

theorem firstError_bad {post : List Note} {n : Note} (h : n.bad = true) : firstError quiet (n :: post) = some (n, .uncorrectable) := by
  unfold firstError
  rw [List.findSome?_cons, if_pos h]

theorem firstError_corrected {post : List Note} {n : Note} (hb : n.bad = false) (hc : n.corrected = true) (hq : quiet = false) :
    firstError quiet (n :: post) = some (n, .corrected) := by
  unfold firstError
  rw [List.findSome?_cons, hb, hc, hq]
  rfl

end firstErrors

/-! ## The state before group and requester are told -/

section notes

variable (s : State) (x : Access) (n : Nat) (ns : List Note)

/-- The Error Capture Record after the timeout: as it stood, or the first error of the words received, or the timeout (R165, R169). -/
def captureAfter : Option Capture :=
  (s.ac.capture.or ((firstError (s.ac.spareOf x.group x.page).quiet ns).map
    (fun e => ⟨x.group, x.page, e.1.offset, e.1.syndrome, e.2, x.kind.requester⟩))).or
    (some ⟨x.group, x.page, x.kind.offsets.getD n 0, 0, .timeout, x.kind.requester⟩)

theorem captureAfter_kept {c : Capture} (h : s.ac.capture = some c) : captureAfter s x n ns = some c := by
  rw [captureAfter, h]
  rfl

theorem captureAfter_error {e : Note × CaptureKind} (h : s.ac.capture = none)
    (he : firstError (s.ac.spareOf x.group x.page).quiet ns = some e) :
    captureAfter s x n ns = some ⟨x.group, x.page, e.1.offset, e.1.syndrome, e.2, x.kind.requester⟩ := by
  rw [captureAfter, h, he]
  rfl

theorem captureAfter_timeout (h : s.ac.capture = none) (hclean : ∀ q ∈ ns, unremarkable (s.ac.spareOf x.group x.page).quiet q) :
    captureAfter s x n ns = some ⟨x.group, x.page, x.kind.offsets.getD n 0, 0, .timeout, x.kind.requester⟩ := by
  rw [captureAfter, h, firstError_none hclean]
  rfl

theorem captureAfter_ne_none : captureAfter s x n ns ≠ none := by
  unfold captureAfter
  rw [Ne, Option.or_eq_none_iff]
  exact fun h => nomatch h.2

/-- The Damaged Page List after what an access found; a record write or a test finds none (R171). -/
def accessDamage : List (Nat × Nat) :=
  match x.kind.readPage with
  | some p => damagedAfter s p ns
  | none => s.ac.damaged

/-- The reports of what an access found. -/
def accessReports : List Report :=
  match x.kind.readPage with
  | some p => damageReports s p ns
  | none => []

/-- The Archive Controller after an access that ends in TIMEOUT noted `ns`, before its group is told. -/
def notedAc : Ac := { s.ac with
  access := none
  dram := (s.ac.writePart x n).dram
  groups := s.ac.groups.update x.group (·.count ns)
  capture := captureAfter s x n ns
  damaged := accessDamage s x ns }

/-- The Incident Unit after an access that ends in TIMEOUT noted `ns`. -/
def notedIu : Iu := { s.iu with reports := s.iu.reports ++ accessReports s x ns }

/-- The state after an access that ends in TIMEOUT noted `ns`, before its group and its requester are told. -/
def afterNotes : State := { s with ac := notedAc s x n ns, iu := notedIu s x ns }

/-- The memory is all that the words transferred change. -/
theorem writePart_eq : s.ac.writePart x n = { s.ac with dram := (s.ac.writePart x n).dram } := by
  unfold Ac.writePart
  split
  · rfl
  · rfl
  · rfl

theorem captured_eq (ac : Ac) (c : Option Capture) : ac.captured c = { ac with capture := ac.capture.or c } := by
  unfold Ac.captured
  cases ac.capture <;> rfl

theorem noteRead_eq (ac : Ac) (g : Group) (page : Nat) (who : Requester) : ac.noteRead g page who ns = { ac with
    groups := ac.groups.update g (·.count ns)
    capture := ac.capture.or ((firstError (ac.spareOf g page).quiet ns).map (fun e => ⟨g, page, e.1.offset, e.1.syndrome, e.2, who⟩)) } := by
  unfold Ac.noteRead
  rw [captured_eq]

/-- The words an access that reads received before its timeout. -/
def received (wrong : WrongLanes) : List (Nat × WordRead) := s.ac.readWords x.group x.page (x.kind.offsets.take n) wrong

theorem timeoutAccess_eq (wrong : WrongLanes) (h : x.abandoned = false) : timeoutAccess s x n wrong =
    ((afterNotes s x n (partNotes x (received s x n wrong))).timeoutGroup x.group).tellTimeout x (received s x n wrong) := by
  have hnot : ¬ x.abandoned = true := by rw [h]; decide
  unfold timeoutAccess received
  generalize s.ac.readWords x.group x.page (x.kind.offsets.take n) wrong = rs
  simp only [if_neg hnot]
  generalize partNotes x rs = ns
  rw [writePart_eq s x n, noteRead_eq, captured_eq]
  unfold State.notePartDamage afterNotes notedAc notedIu accessDamage accessReports
  generalize (s.ac.writePart x n).dram = dram
  cases x.kind.readPage with
  | none =>
    simp only [List.append_nil]
    rfl
  | some p =>
    simp only [noteDamage_eq]
    rfl

/-- An abandoned access leaves what it wrote (R163). -/
theorem timeoutAccess_abandoned (wrong : WrongLanes) (h : x.abandoned = true) :
    timeoutAccess s x n wrong = { s with ac := { s.ac with access := none, dram := (s.ac.writePart x n).dram } } := by
  unfold timeoutAccess
  rw [if_pos h, writePart_eq s x n]
  rfl

end notes

/-! ## The memory -/

section memory

variable (s : State) (x : Access) (n : Nat)

/-- What was transferred of a write stands in the words it wrote, and nowhere else. -/
theorem writePart_get_other {a : Nat}
    (h : a < (x.group.val * 524288 + x.page) * 1024 ∨ (x.group.val * 524288 + x.page) * 1024 + n ≤ a) :
    tableGet (s.ac.writePart x n).dram a = tableGet s.ac.dram a := by
  unfold Ac.writePart
  split
  · exact writeWords_get_other _ _ _ _ _ _ h
  · exact writeWords_get_other _ _ _ _ _ _ h
  · rfl

theorem writePart_of_read (hr : ∀ w p, x.kind ≠ .record w p) (ht : x.kind ≠ .testWrite) : s.ac.writePart x n = s.ac := by
  unfold Ac.writePart
  split
  · next w p hk => exact absurd hk (hr w p)
  · next hk => exact absurd hk ht
  · rfl

end memory

/-! ## The words transferred (R175; log entry 29) -/

section offsets

theorem pageOffsets_eq : pageOffsets = List.range 1024 := rfl

theorem pageOffsets_length : pageOffsets.length = 1024 := by
  rw [pageOffsets_eq, List.length_range]

theorem pageOffsets_getD {n : Nat} (h : n < 1024) : pageOffsets.getD n 0 = n := by
  rw [pageOffsets_eq, List.getD_eq_getElem _ _ (by rw [List.length_range]; exact h), List.getElem_range]

/-- The offsets of one chunk. -/
def chunkBlock (f : Feed) : List Nat := (List.range 128).map (fun i => 128 * f.val + i)

theorem chunkBlock_length (f : Feed) : (chunkBlock f).length = 128 := by
  rw [chunkBlock, List.length_map, List.length_range]

theorem chunkOffsets_eq (chunks : List Feed) : chunkOffsets chunks = (chunks.map chunkBlock).flatten := rfl

theorem chunkOffsets_cons (f : Feed) (chunks : List Feed) : chunkOffsets (f :: chunks) = chunkBlock f ++ chunkOffsets chunks := rfl

theorem chunkOffsets_length (chunks : List Feed) : (chunkOffsets chunks).length = 128 * chunks.length := by
  induction chunks with
  | nil => rfl
  | cons f fs ih =>
    rw [chunkOffsets_cons, List.length_append, chunkBlock_length, ih, List.length_cons]
    omega

/-- Word i of a read lies in its chunk number i / 128. -/
theorem chunkOffsets_getElem? (chunks : List Feed) (i : Nat) :
    (chunkOffsets chunks)[i]? = chunks[i / 128]?.map (fun f => 128 * f.val + i % 128) := by
  induction chunks generalizing i with
  | nil => rfl
  | cons f fs ih =>
    rw [chunkOffsets_cons, List.getElem?_append, chunkBlock_length]
    by_cases h : i < 128
    · have hzero : i / 128 = 0 := by omega
      have hrest : i % 128 = i := by omega
      rw [if_pos h, hzero, hrest, chunkBlock, List.getElem?_map, List.getElem?_range h]
      rfl
    · have hnext : i / 128 = (i - 128) / 128 + 1 := by omega
      have hsame : (i - 128) % 128 = i % 128 := by omega
      rw [if_neg h, ih, hnext, List.getElem?_cons_succ, hsame]

theorem div_of_mem_chunkBlock {f : Feed} {i : Nat} (h : i ∈ chunkBlock f) : i / 128 = f.val := by
  obtain ⟨j, hj, rfl⟩ := List.mem_map.mp h
  have := List.mem_range.mp hj
  omega

theorem div_of_mem_chunkOffsets {chunks : List Feed} {i : Nat} (h : i ∈ chunkOffsets chunks) : ∃ f ∈ chunks, i / 128 = f.val := by
  rw [chunkOffsets_eq] at h
  obtain ⟨block, hblock, hi⟩ := List.mem_flatten.mp h
  obtain ⟨f, hf, rfl⟩ := List.mem_map.mp hblock
  exact ⟨f, hf, div_of_mem_chunkBlock hi⟩

/-- The words received of chunk number k are the first of its block. -/
theorem chunkOffsets_received {chunks : List Feed} (hn : chunks.Nodup) {k : Nat} {f : Feed} (hf : chunks[k]? = some f) (words : Nat) :
    ((chunkOffsets chunks).take words).filter (fun i => decide (i / 128 = f.val)) = (chunkBlock f).take (words - 128 * k) := by
  induction chunks generalizing k words with
  | nil => cases hf
  | cons c cs ih =>
    obtain ⟨hc, hcs⟩ := List.nodup_cons.mp hn
    rw [chunkOffsets_cons, List.take_append, chunkBlock_length, List.filter_append]
    cases k with
    | zero =>
      obtain rfl : c = f := Option.some.inj hf
      have hfirst : ((chunkBlock c).take words).filter (fun i => decide (i / 128 = c.val)) = (chunkBlock c).take words :=
        List.filter_eq_self.mpr fun i hi => decide_eq_true (div_of_mem_chunkBlock (List.mem_of_mem_take hi))
      have hrest : ((chunkOffsets cs).take (words - 128)).filter (fun i => decide (i / 128 = c.val)) = [] := by
        refine List.filter_eq_nil_iff.mpr fun i hi hdiv => ?_
        obtain ⟨h, hmem, hh⟩ := div_of_mem_chunkOffsets (List.mem_of_mem_take hi)
        exact hc (Fin.ext ((of_decide_eq_true hdiv).symm.trans hh) ▸ hmem)
      rw [hfirst, hrest, List.append_nil]
      rfl
    | succ k =>
      have hf' : cs[k]? = some f := hf
      have hfirst : ((chunkBlock c).take words).filter (fun i => decide (i / 128 = f.val)) = [] := by
        refine List.filter_eq_nil_iff.mpr fun i hi hdiv => ?_
        have hcf : c = f := Fin.ext ((div_of_mem_chunkBlock (List.mem_of_mem_take hi)).symm.trans (of_decide_eq_true hdiv))
        exact hc (hcf ▸ List.mem_of_getElem? hf')
      have hwords : words - 128 - 128 * k = words - 128 * (k + 1) := by omega
      rw [hfirst, ih hcs hf', hwords, List.nil_append]

/-- At least one word is not transferred (log entry 29). -/
theorem transferred_of_lt {k : AccessKind} {words : Nat} (h : words < k.offsets.length) : k.transferred words = words :=
  Nat.min_eq_left (by omega)

theorem transferred_lt_page {x : Access} (words : Nat) (h : ∀ r, x.kind ≠ .exportRead r) : x.kind.transferred words ≤ 1024 := by
  have hoffsets : x.kind.offsets = pageOffsets := by
    unfold AccessKind.offsets
    split
    · next r hk => exact absurd hk (h r)
    · rfl
  unfold AccessKind.transferred
  rw [hoffsets, pageOffsets_length]
  omega

end offsets

/-! ## What the Export Unit makes of a read cut short (R175) -/

section chunks

theorem outcomeOf_ne_timeout (ws : List WordRead) : outcomeOf ws ≠ .timeout := by
  unfold outcomeOf
  split
  · nofun
  · split <;> nofun

theorem any_outcome_iff (ws : List WordRead) (o : WordOutcome) :
    ws.any (fun w => decide (w.outcome = o)) = true ↔ ∃ w ∈ ws, w.outcome = o := by
  simp only [List.any_eq_true, decide_eq_true_iff]

theorem outcomeOf_damaged_iff (ws : List WordRead) : outcomeOf ws = .damaged ↔ ∃ w ∈ ws, w.outcome = .uncorrectable := by
  rw [← any_outcome_iff]
  unfold outcomeOf
  split
  · next h => exact iff_of_true rfl h
  · next h => split <;> exact iff_of_false nofun h

theorem outcomeOf_clean_iff (ws : List WordRead) : outcomeOf ws = .clean ↔ ∀ w ∈ ws, w.outcome = .clean := by
  have hcases : (∀ w ∈ ws, w.outcome = .clean) ↔
      ¬ (∃ w ∈ ws, w.outcome = .uncorrectable) ∧ ¬ ∃ w ∈ ws, w.outcome = .corrected := by
    constructor
    · exact fun h => ⟨fun ⟨w, hw, ho⟩ => WordOutcome.noConfusion ((h w hw).symm.trans ho),
        fun ⟨w, hw, ho⟩ => WordOutcome.noConfusion ((h w hw).symm.trans ho)⟩
    · rintro ⟨hu, hc⟩ w hw
      cases ho : w.outcome with
      | clean => rfl
      | corrected => exact absurd ⟨w, hw, ho⟩ hc
      | uncorrectable => exact absurd ⟨w, hw, ho⟩ hu
  rw [hcases, ← any_outcome_iff, ← any_outcome_iff]
  unfold outcomeOf
  split
  · next h => exact iff_of_false nofun fun hno => hno.1 h
  · next h =>
    split
    · next hc => exact iff_of_false nofun fun hno => hno.2 hc
    · next hc => exact iff_of_true rfl ⟨h, hc⟩

theorem bufferedChunk_of_words {rs : List (Nat × WordRead)} {f : Feed} {ws : List WordRead}
    (h : (rs.filter (fun r => decide (r.1 / Config.chunkWords = f.val))).map (·.2) = ws) :
    bufferedChunk rs f = if ws.length < 128 then .chunk .timeout [] else .chunk (outcomeOf ws) (ws.map (·.data)) := by
  subst h
  rfl

variable (read : Nat → WordRead) {chunks : List Feed} {k : Nat} {f : Feed}

/-- What the buffer holds of chunk number k after `words` words. -/
theorem bufferedChunk_eq (hn : chunks.Nodup) (hf : chunks[k]? = some f) (words : Nat) :
    bufferedChunk (((chunkOffsets chunks).take words).map (fun i => (i, read i))) f =
      if words < 128 * (k + 1) then .chunk .timeout []
      else .chunk (outcomeOf ((chunkBlock f).map read)) ((chunkBlock f).map (fun i => (read i).data)) := by
  have hws : ((((chunkOffsets chunks).take words).map (fun i => (i, read i))).filter
      (fun r => decide (r.1 / Config.chunkWords = f.val))).map (·.2) = ((chunkBlock f).take (words - 128 * k)).map read := by
    rw [List.filter_map, List.map_map, ← chunkOffsets_received hn hf words]
    rfl
  rw [bufferedChunk_of_words hws, List.length_map, List.length_take, chunkBlock_length]
  by_cases h : words < 128 * (k + 1)
  · rw [if_pos h, if_pos (by omega)]
  · rw [if_neg h, if_neg (by omega), List.take_of_length_le (by rw [chunkBlock_length]; omega), List.map_map]
    rfl

/-- A chunk received whole is CLEAN, CORRECTED or DAMAGED by its words; one cut short is a TIMEOUT. -/
theorem bufferedChunk_spec (hn : chunks.Nodup) (hf : chunks[k]? = some f) (words : Nat) :
    ∃ b, (chunks.map (fun f => (f, bufferedChunk (((chunkOffsets chunks).take words).map (fun i => (i, read i))) f)))[k]? = some (f, b) ∧
      (words < 128 * (k + 1) → b = .chunk .timeout []) ∧
      (128 * (k + 1) ≤ words → ∃ o, o ≠ .timeout ∧ b = .chunk o ((List.range 128).map (fun i => (read (128 * f.val + i)).data)) ∧
        (o = .damaged ↔ ∃ i, i < 128 ∧ (read (128 * f.val + i)).outcome = .uncorrectable) ∧
        (o = .clean ↔ ∀ i, i < 128 → (read (128 * f.val + i)).outcome = .clean)) := by
  have hmem (w : WordRead) : w ∈ (chunkBlock f).map read ↔ ∃ i, i < 128 ∧ read (128 * f.val + i) = w := by
    simp only [chunkBlock, List.map_map, List.mem_map, List.mem_range, Function.comp_apply]
  refine ⟨_, by rw [List.getElem?_map, hf, Option.map_some], fun hcut => ?_, fun hwhole => ?_⟩
  · rw [bufferedChunk_eq read hn hf, if_pos hcut]
  · refine ⟨_, outcomeOf_ne_timeout ((chunkBlock f).map read), ?_, ?_, ?_⟩
    · rw [bufferedChunk_eq read hn hf, if_neg (by omega), chunkBlock, List.map_map]
      rfl
    · rw [outcomeOf_damaged_iff]
      constructor
      · rintro ⟨w, hw, ho⟩
        obtain ⟨i, hi, rfl⟩ := (hmem w).mp hw
        exact ⟨i, hi, ho⟩
      · rintro ⟨i, hi, ho⟩
        exact ⟨_, (hmem _).mpr ⟨i, hi, rfl⟩, ho⟩
    · rw [outcomeOf_clean_iff]
      constructor
      · exact fun h i hi => h _ ((hmem _).mpr ⟨i, hi, rfl⟩)
      · intro h w hw
        obtain ⟨i, hi, rfl⟩ := (hmem w).mp hw
        exact h i hi

end chunks

end Sys2Proof.Proofs.Recording
end

section

namespace Sys2Proof.Proofs.Recording

open Sys2Proof Sys2Proof.Machine

/-!
# Group and requester after a TIMEOUT (R148, R149, R160, R161, R165)
-/

section command

variable {s : State} {x : Access}

theorem exec_accessTimeout (words : Nat) (wrong : WrongLanes) (h : s.ac.access = some x) :
    exec (.accessTimeout words wrong) s = .next (timeoutAccess s x (x.kind.transferred words) wrong) := by
  change execAccessTimeout words wrong s = _
  simp only [execAccessTimeout, h]

end command

/-! ## The group faults while RECORDING (R157, R165) -/

section faulting

variable (s : State) (x : Access) (n : Nat) (ns : List Note)

/-- The Archive Controller once the group of a timed-out access has faulted. -/
def faultedAc : Ac :=
  { notedAc s x n ns with groups := (notedAc s x n ns).groups.update x.group (fun y => { y with state := .faulted }) }

/-- The Retention Unit once the group has faulted: the quota follows the groups (R123, R157). -/
def faultedRu : Ru := { s.ru with
  healthyPages := 524288 * (faultedAc s x n ns).healthyGroups
  quota := 524288 * (faultedAc s x n ns).healthyGroups / 2 }

/-- The state once the group of a timed-out access has faulted, ARCHIVE flagged (R158). -/
def afterFault : State :=
  { s with ac := faultedAc s x n ns, iu := notedIu s x ns, ru := faultedRu s x n ns, li := s.li.raiseAll .archive }

theorem exec_timeout_recording {words : Nat} (wrong : WrongLanes) (hx : s.ac.access = some x) (hab : x.abandoned = false)
    (hrec : s.ac.state = .recording) (hlt : words < x.kind.offsets.length) : exec (.accessTimeout words wrong) s =
      .next ((afterFault s x words (partNotes x (received s x words wrong))).tellTimeout x (received s x words wrong)) := by
  have hstate (ns : List Note) : (afterNotes s x words ns).timeoutGroup x.group = afterFault s x words ns := by
    have hrec' : (afterNotes s x words ns).ac.state = .recording := hrec
    simp only [State.timeoutGroup, hrec']
    rfl
  rw [exec_accessTimeout words wrong hx, transferred_of_lt hlt, timeoutAccess_eq s x words wrong hab, hstate]

theorem notedAc_get (h : Group) : (notedAc s x n ns).groups.get h =
    if h = x.group then (s.ac.groups.get h).count ns else s.ac.groups.get h := Quad.get_update _ _ _ _

theorem faultedAc_get (h : Group) : (faultedAc s x n ns).groups.get h =
    if h = x.group then { (s.ac.groups.get h).count ns with state := .faulted } else s.ac.groups.get h := by
  refine (Quad.get_update _ _ _ _).trans ?_
  rw [notedAc_get]
  by_cases hh : h = x.group
  · simp only [if_pos hh]
  · simp only [if_neg hh]

theorem faultedAc_faulted : ((faultedAc s x n ns).groups.get x.group).state = .faulted := by
  rw [faultedAc_get, if_pos rfl]

theorem faultedAc_others {h : Group} (hh : h ≠ x.group) : (faultedAc s x n ns).groups.get h = s.ac.groups.get h := by
  rw [faultedAc_get, if_neg hh]

/-- The HEALTHY groups are the other HEALTHY groups of the bank (R123, R157). -/
theorem faultedAc_healthyGroups : (faultedAc s x n ns).healthyGroups =
    (s.ac.bank.filter (fun h => decide (h ≠ x.group) && decide ((s.ac.groups.get h).state = .healthy))).length := by
  have hhealthy (h : Group) : decide (((faultedAc s x n ns).groups.get h).state = .healthy) =
      (decide (h ≠ x.group) && decide ((s.ac.groups.get h).state = .healthy)) := by
    by_cases hh : h = x.group
    · rw [hh, faultedAc_faulted, decide_eq_false (not_not_intro rfl)]
      rfl
    · rw [faultedAc_others s x n ns hh, decide_eq_true hh, Bool.true_and]
  have hcount : (faultedAc s x n ns).healthyGroups =
    (s.ac.bank.filter (fun h => decide (((faultedAc s x n ns).groups.get h).state = .healthy))).length := rfl
  rw [hcount, funext hhealthy]

/-- A count of no words stands, but for its top (R170). -/
theorem faultedAc_corrected (h : Group) : ((faultedAc s x n []).groups.get h).corrected = min (s.ac.groups.get h).corrected 65535 ∨
    ((faultedAc s x n []).groups.get h).corrected = (s.ac.groups.get h).corrected := by
  rw [faultedAc_get]
  split
  · exact .inl rfl
  · exact .inr rfl

/-- A write or a test access that times out reports no damage (R171). -/
theorem notedIu_none (h : x.kind.readPage = none) : notedIu s x ns = s.iu := by
  rw [notedIu, accessReports, h, List.append_nil]

end faulting

/-! ## The Export Unit is told (R175, R181, R185) -/

section exports

variable (s : State)

theorem place_endings (xu : Xu) (j : Job) (buffer : List (Feed × Buffered)) : (xu.place j buffer).endings = xu.endings := by
  cases buffer <;> rfl

theorem activate_endings : s.activate.xu.endings = s.xu.endings := by
  unfold State.activate
  split
  · rfl
  · unfold State.lookup
    split
    · exact place_endings _ _ _
    · exact place_endings _ _ _
    · rfl

theorem endActive_endings (j : Job) (st : EndStatus) : (s.endActive j st).xu.endings =
    s.xu.endings.set j.link (some ⟨j.number, st, j.sent, j.damaged, j.unavailable, j.absent⟩) := by
  unfold State.endActive
  exact activate_endings _

variable {s} {j : Job} {rest : List Job}

theorem deliver_aborted (r : ReadRequest) (rs : List (Nat × WordRead)) (hj : s.xu.jobs = j :: rest) (ha : j.abort = true) :
    s.deliver r rs = s.endActive j .aborted := by
  simp only [State.deliver, hj, ha, if_true]

theorem deliver_sending (r : ReadRequest) (rs : List (Nat × WordRead)) (hj : s.xu.jobs = j :: rest) (ha : j.abort = false) :
    s.deliver r rs = s.enterSending j (r.chunks.map (fun f => (f, bufferedChunk rs f))) := by
  simp only [State.deliver, hj, ha]
  rfl

/-- A tick buffer that is not empty is placed whole. -/
theorem enterSending_map (hj : s.xu.jobs = j :: rest) {chunks : List Feed} (hne : chunks ≠ []) (g : Feed → Buffered) :
    (s.enterSending j (chunks.map (fun f => (f, g f)))).xu.jobs = { j with phase := .sending, feed := chunks.head? } :: rest ∧
      (s.enterSending j (chunks.map (fun f => (f, g f)))).xu.buffer = chunks.map (fun f => (f, g f)) := by
  cases chunks with
  | nil => exact absurd rfl hne
  | cons f fs =>
    refine ⟨?_, rfl⟩
    have hjobs : (s.enterSending j ((f :: fs).map (fun f => (f, g f)))).xu.jobs =
      { j with phase := .sending, feed := some f } :: s.xu.jobs.tail := rfl
    rw [hjobs, hj]
    rfl

/-- Of the Archive Controller the Export Unit's taking of a read changes at most the request that waits. -/
theorem deliver_frame (s : State) (r : ReadRequest) (rs : List (Nat × WordRead)) :
    ∃ ru xu request li, s.deliver r rs = { s with ru := ru, xu := xu, ac := { s.ac with exportRequest := request }, li := li } := by
  unfold State.deliver
  split
  · exact ⟨s.ru, s.xu, s.ac.exportRequest, s.li, rfl⟩
  · next j _ _ =>
    split
    · obtain ⟨xu, request, h⟩ := State.endActive_frame s j .aborted
      exact ⟨_, xu, request, _, h⟩
    · exact ⟨s.ru, _, s.ac.exportRequest, s.li, rfl⟩

theorem deliver_archive (s : State) (r : ReadRequest) (rs : List (Nat × WordRead)) :
    (s.deliver r rs).ac.access = s.ac.access ∧ (s.deliver r rs).ac.groups = s.ac.groups ∧ (s.deliver r rs).ac.dram = s.ac.dram ∧
      (s.deliver r rs).ac.capture = s.ac.capture := by
  obtain ⟨ru, xu, request, li, h⟩ := deliver_frame s r rs
  rw [h]
  exact ⟨rfl, rfl, rfl, rfl⟩

end exports

/-! ## The test goes on (R160, R161) -/

section tests

variable (s : State) (p : TestPosition)

theorem testAdvance_nextSlot (h : p.slot + 1 < s.ac.bank.length) :
    s.testAdvance p true = s.withAc { s.ac with test := some ⟨p.slot + 1, 0, false⟩, testRequest := true } := by
  unfold State.testAdvance
  rw [if_neg nofun, if_pos h]

theorem testAdvance_lastSlot (h : s.ac.bank.length ≤ p.slot + 1) : s.testAdvance p true = s.testComplete := by
  unfold State.testAdvance
  rw [if_neg nofun, if_neg (by omega)]

theorem testedGroups_get (ac : Ac) (h : Group) : ac.testedGroups.get h =
    if h ∈ ac.bank then { ac.groups.get h with state := if (ac.groups.get h).faultMark then .faulted else .healthy } else ac.groups.get h :=
  Quad.get_tab _ h

theorem testComplete_get (h : Group) : s.testComplete.ac.groups.get h = s.ac.testedGroups.get h := rfl

/-- A completed test keeps every fault mark and every count. -/
theorem testComplete_keeps (h : Group) : (s.testComplete.ac.groups.get h).faultMark = (s.ac.groups.get h).faultMark ∧
    (s.testComplete.ac.groups.get h).corrected = (s.ac.groups.get h).corrected ∧
    (s.testComplete.ac.groups.get h).uncorrectable = (s.ac.groups.get h).uncorrectable := by
  rw [testComplete_get, testedGroups_get]
  split <;> exact ⟨rfl, rfl, rfl⟩

theorem testComplete_mapped {h : Group} (hmem : h ∈ s.ac.bank) : (s.testComplete.ac.groups.get h).state =
    if (s.testComplete.ac.groups.get h).faultMark then .faulted else .healthy := by
  rw [(testComplete_keeps s h).1, testComplete_get, testedGroups_get, if_pos hmem]

/-- The archive is TESTED when a group came out HEALTHY, MAPPED otherwise (R161). -/
theorem testComplete_state :
    (s.testComplete.ac.state = .tested ↔ ∃ h ∈ s.ac.bank, (s.testComplete.ac.groups.get h).state = .healthy) ∧
      (s.testComplete.ac.state ≠ .tested → s.testComplete.ac.state = .mapped) := by
  have hstate : s.testComplete.ac.state = if 0 < (s.ac.bank.filter
      (fun h => decide ((s.testComplete.ac.groups.get h).state = .healthy))).length then .tested else .mapped := rfl
  have hpos : 0 < (s.ac.bank.filter (fun h => decide ((s.testComplete.ac.groups.get h).state = .healthy))).length ↔
      ∃ h ∈ s.ac.bank, (s.testComplete.ac.groups.get h).state = .healthy := by
    simp only [List.length_pos_iff_exists_mem, List.mem_filter, decide_eq_true_iff]
  rw [hstate, ← hpos]
  split
  · next h => exact ⟨iff_of_true rfl h, fun hne => absurd rfl hne⟩
  · next h => exact ⟨iff_of_false nofun h, fun _ => rfl⟩

/-- A completed test changes the Archive Controller, the quota and the ARCHIVE flag. -/
theorem testComplete_eq : s.testComplete =
    { s with ac := s.testComplete.ac, ru := s.testComplete.ru, li := s.li.raiseAll .archive } := rfl

variable (x : Access) (n : Nat) (ns : List Note)

/-- The Archive Controller once the mark of the group under test is set (R165). -/
def markedAc : Ac := (notedAc s x n ns).markFault x.group

theorem markedAc_get (h : Group) : (markedAc s x n ns).groups.get h =
    if h = x.group then { (s.ac.groups.get h).count ns with faultMark := true } else s.ac.groups.get h := by
  refine (Quad.get_update _ _ _ _).trans ?_
  rw [notedAc_get]
  by_cases hh : h = x.group
  · simp only [if_pos hh]
  · simp only [if_neg hh]

/-- The mark of the group is set, the others stand. -/
theorem markedAc_marks (h : Group) : ((markedAc s x n ns).groups.get h).faultMark =
    if h = x.group then true else (s.ac.groups.get h).faultMark := by
  rw [markedAc_get]
  split <;> rfl

theorem markedAc_states (h : Group) : ((markedAc s x n ns).groups.get h).state = (s.ac.groups.get h).state := by
  rw [markedAc_get]
  split <;> rfl

/-- The state once the mark of the group under test is set: a test reports no damage. -/
def afterMark : State := { s with ac := markedAc s x n ns }

theorem exec_timeout_testing {words : Nat} (wrong : WrongLanes) {p : TestPosition} (hx : s.ac.access = some x) (hab : x.abandoned = false)
    (hk : x.kind = .testWrite ∨ x.kind = .testRead) (htest : s.ac.state = .testing) (hp : s.ac.test = some p) :
    ∃ ns, exec (.accessTimeout words wrong) s = .next ((afterMark s x (x.kind.transferred words) ns).testAdvance p true) := by
  refine ⟨partNotes x (received s x (x.kind.transferred words) wrong), ?_⟩
  generalize hn : x.kind.transferred words = n
  have hread : x.kind.readPage = none := by rcases hk with hk | hk <;> rw [hk] <;> rfl
  have hmark (ns : List Note) : (afterNotes s x n ns).timeoutGroup x.group = afterMark s x n ns := by
    have htest' : (afterNotes s x n ns).ac.state = .testing := htest
    simp only [State.timeoutGroup, htest']
    rw [afterNotes, notedIu_none s x ns hread]
    rfl
  have htell (ns : List Note) (rs : List (Nat × WordRead)) :
      (afterMark s x n ns).tellTimeout x rs = (afterMark s x n ns).testAdvance p true := by
    have hp' : (afterMark s x n ns).ac.test = some p := hp
    unfold State.tellTimeout
    rcases hk with hk | hk <;> simp only [hk, hp']
  rw [exec_accessTimeout words wrong hx, hn, timeoutAccess_eq s x n wrong hab, hmark, htell]

/-- The test goes on with the next slot. -/
theorem advance_nextSlot (h : p.slot + 1 < s.ac.bank.length) : (afterMark s x n ns).testAdvance p true =
    { s with ac := { markedAc s x n ns with test := some ⟨p.slot + 1, 0, false⟩, testRequest := true } } :=
  testAdvance_nextSlot (afterMark s x n ns) p h

/-- After the last slot the test completes. -/
theorem advance_lastSlot (h : s.ac.bank.length ≤ p.slot + 1) : (afterMark s x n ns).testAdvance p true =
    { s with
      ac := (afterMark s x n ns).testComplete.ac
      ru := (afterMark s x n ns).testComplete.ru
      li := s.li.raiseAll .archive } := by
  rw [testAdvance_lastSlot (afterMark s x n ns) p h]
  exact testComplete_eq (afterMark s x n ns)

end tests

/-! ## What group and requester leave of the notes (R169 to R172) -/

section keeps

/-- The capture, the damage, the reports and the counts of a state stand in another. -/
structure KeepsNotes (s t : State) : Prop where
  capture : t.ac.capture = s.ac.capture
  damaged : t.ac.damaged = s.ac.damaged
  iu : t.iu = s.iu
  corrected : ∀ h, (t.ac.groups.get h).corrected = (s.ac.groups.get h).corrected
  uncorrectable : ∀ h, (t.ac.groups.get h).uncorrectable = (s.ac.groups.get h).uncorrectable

theorem KeepsNotes.refl (s : State) : KeepsNotes s s := ⟨rfl, rfl, rfl, fun _ => rfl, fun _ => rfl⟩

theorem KeepsNotes.trans {s t u : State} (h : KeepsNotes s t) (k : KeepsNotes t u) : KeepsNotes s u :=
  ⟨k.capture.trans h.capture, k.damaged.trans h.damaged, k.iu.trans h.iu, fun g => (k.corrected g).trans (h.corrected g),
    fun g => (k.uncorrectable g).trans (h.uncorrectable g)⟩

/-- A change of one group that leaves its counts alone. -/
theorem update_keeps (groups : Quad GroupRecord) (g h : Group) {change : GroupRecord → GroupRecord}
    (hc : ∀ x, (change x).corrected = x.corrected ∧ (change x).uncorrectable = x.uncorrectable) :
    ((groups.update g change).get h).corrected = (groups.get h).corrected ∧
      ((groups.update g change).get h).uncorrectable = (groups.get h).uncorrectable := by
  rw [Quad.get_update]
  split
  · exact hc _
  · exact ⟨rfl, rfl⟩

theorem keepsNotes_timeoutGroup (s : State) (g : Group) : KeepsNotes s (s.timeoutGroup g) := by
  unfold State.timeoutGroup
  split
  · have hcounts (h : Group) := update_keeps s.ac.groups g h (change := fun x => { x with state := .faulted }) fun _ => ⟨rfl, rfl⟩
    exact ⟨rfl, rfl, rfl, fun h => (hcounts h).1, fun h => (hcounts h).2⟩
  · have hcounts (h : Group) := update_keeps s.ac.groups g h (change := fun x => { x with faultMark := true }) fun _ => ⟨rfl, rfl⟩
    exact ⟨rfl, rfl, rfl, fun h => (hcounts h).1, fun h => (hcounts h).2⟩
  · exact .refl s

theorem keepsNotes_testAdvance (s : State) (p : TestPosition) (faulted : Bool) : KeepsNotes s (s.testAdvance p faulted) := by
  rcases State.testAdvance_cases s p faulted with ⟨y, h, -⟩ | h <;> rw [h]
  · exact ⟨rfl, rfl, rfl, fun _ => rfl, fun _ => rfl⟩
  · exact ⟨rfl, rfl, rfl, fun g => (testComplete_keeps s g).2.1, fun g => (testComplete_keeps s g).2.2⟩

theorem keepsNotes_deliver (s : State) (r : ReadRequest) (rs : List (Nat × WordRead)) : KeepsNotes s (s.deliver r rs) := by
  obtain ⟨ru, xu, request, li, h⟩ := deliver_frame s r rs
  rw [h]
  exact ⟨rfl, rfl, rfl, fun _ => rfl, fun _ => rfl⟩

/-- A requester that reads is told without a change to what was noted. -/
theorem keepsNotes_tellTimeout (s : State) {x : Access} (rs : List (Nat × WordRead)) (h : ∀ w p, x.kind ≠ .record w p) :
    KeepsNotes s (s.tellTimeout x rs) := by
  unfold State.tellTimeout
  split
  · next w p hk => exact absurd hk (h w p)
  · exact keepsNotes_deliver s _ rs
  · exact .refl s
  all_goals
    split
    · exact keepsNotes_testAdvance s _ true
    · exact .refl s

/-- A read that times out keeps to the end what it noted. -/
theorem exec_timeout_notes {s : State} {x : Access} {words : Nat} (wrong : WrongLanes) (hx : s.ac.access = some x)
    (hab : x.abandoned = false) (hk : ∀ w p, x.kind ≠ .record w p) (hlt : words < x.kind.offsets.length) :
    ∃ t, exec (.accessTimeout words wrong) s = .next t ∧
      KeepsNotes (afterNotes s x words (partNotes x (received s x words wrong))) t := by
  refine ⟨_, exec_accessTimeout words wrong hx, ?_⟩
  rw [transferred_of_lt hlt, timeoutAccess_eq s x words wrong hab]
  exact (keepsNotes_timeoutGroup _ x.group).trans (keepsNotes_tellTimeout _ _ hk)

end keeps

end Sys2Proof.Proofs.Recording
end

section

namespace Sys2Proof.Proofs.Recording

open Sys2Proof Sys2Proof.Machine

/-!
# ACCESS_TIMEOUT by its requester (R148, R149, R161, R163, R165, R169 to R172, R175)
-/

/-! ## The notes of a read (R169, R170; log entry 28) -/

section notes

variable (word : Nat → WordRead) (bad : Nat → Bool)

/-- The note of the word at offset `i`. -/
def noteOf (i : Nat) : Note := ⟨i, (word i).syndrome, decide ((word i).outcome = .corrected), bad i⟩

variable {word bad}

theorem plainNote_eq {i : Nat} (h : bad i = true ↔ (word i).outcome = .uncorrectable) : plainNote (i, word i) = noteOf word bad i := by
  have hbad : bad i = decide ((word i).outcome = .uncorrectable) := Bool.eq_iff_iff.mpr (h.trans decide_eq_true_iff.symm)
  rw [noteOf, hbad]
  rfl

theorem testNote_eq {i page : Nat} (h : bad i = true ↔ (word i).outcome = .uncorrectable ∨ (word i).data ≠ testWord page i) :
    testNote page (i, word i) = noteOf word bad i := by
  have hbad : bad i = (decide ((word i).outcome = .uncorrectable) || decide ((word i).data ≠ testWord page i)) := by
    rw [Bool.eq_iff_iff, h, Bool.or_eq_true, decide_eq_true_iff, decide_eq_true_iff]
  rw [noteOf, hbad]
  rfl

/-- The notes of a read that times out are those of the words received. -/
theorem partNotes_read {s : State} {x : Access} {wrong : WrongLanes}
    (hk : (∃ r, x.kind = .exportRead r) ∨ (∃ r, x.kind = .scrub r) ∨ x.kind = .testRead)
    (hword : ∀ i, word i = s.ac.readWord x.group x.page i wrong)
    (hbad : ∀ i, bad i = true ↔ (word i).outcome = .uncorrectable ∨ x.kind = .testRead ∧ (word i).data ≠ testWord x.page i) (n : Nat) :
    partNotes x (received s x n wrong) = (x.kind.offsets.take n).map (noteOf word bad) := by
  have hreceived : received s x n wrong = (x.kind.offsets.take n).map (fun i => (i, word i)) := by
    rw [funext hword]
    rfl
  have hplain (hne : x.kind ≠ .testRead) : (received s x n wrong).map plainNote = (x.kind.offsets.take n).map (noteOf word bad) := by
    rw [hreceived, List.map_map]
    exact List.map_congr_left fun i _ => plainNote_eq ((hbad i).trans (or_iff_left fun h => hne h.1))
  rcases hk with ⟨r, hr⟩ | ⟨r, hr⟩ | ht
  · rw [← hplain (hr ▸ nofun), partNotes, hr]
  · rw [← hplain (hr ▸ nofun), partNotes, hr]
  · have htest : partNotes x (received s x n wrong) = (received s x n wrong).map (testNote x.page) := by rw [partNotes, ht]
    rw [htest, hreceived, List.map_map]
    exact List.map_congr_left fun i _ => testNote_eq ((hbad i).trans (or_congr_right (and_iff_right ht)))

theorem unremarkable_noteOf {quiet : Bool} {i : Nat} (h : bad i = false ∧ ((word i).outcome = .corrected → quiet = true)) :
    unremarkable quiet (noteOf word bad i) :=
  ⟨h.1, fun hc => h.2 (of_decide_eq_true hc)⟩

theorem unremarkable_notes {quiet : Bool} {got : List Nat}
    (h : ∀ q ∈ got, bad q = false ∧ ((word q).outcome = .corrected → quiet = true)) :
    ∀ n ∈ got.map (noteOf word bad), unremarkable quiet n := by
  intro n hn
  obtain ⟨q, hq, rfl⟩ := List.mem_map.mp hn
  exact unremarkable_noteOf (h q hq)

theorem find_bad_none {got : List Nat} (h : ∀ q ∈ got, bad q = false) : (got.map (noteOf word bad)).find? (·.bad) = none := by
  refine List.find?_eq_none.mpr fun n hn => ?_
  obtain ⟨q, hq, rfl⟩ := List.mem_map.mp hn
  exact Bool.not_eq_true _ ▸ h q hq

theorem find_bad_first {pre post : List Nat} {i : Nat} (h : ∀ q ∈ pre, bad q = false) (hi : bad i = true) :
    ((pre ++ i :: post).map (noteOf word bad)).find? (·.bad) = some (noteOf word bad i) := by
  rw [List.map_append, List.find?_append, find_bad_none h, Option.none_or, List.map_cons]
  exact List.find?_cons_of_pos hi

theorem count_corrected (got : List Nat) : ((got.map (noteOf word bad)).filter (·.corrected)).length =
    (got.filter (fun i => decide ((word i).outcome = .corrected))).length := by
  rw [List.filter_map, List.length_map]
  rfl

theorem count_bad (got : List Nat) : ((got.map (noteOf word bad)).filter (·.bad)).length = (got.filter bad).length := by
  rw [List.filter_map, List.length_map]
  rfl

end notes

/-! ## The page of a read (R171, R172) -/

section damage

variable {s : State} {p u : Nat} {ns : List Note}

theorem damagedAfter_none (h : ns.find? (·.bad) = none) : damagedAfter s p ns = s.ac.damaged ∧ damageReports s p ns = [] := by
  simp only [damagedAfter, damageReports, h, and_self]

theorem damaged_any_iff : s.ac.damaged.any (fun e => decide (e.1 = p)) = true ↔ ∃ e ∈ s.ac.damaged, e.1 = p := by
  simp only [List.any_eq_true, decide_eq_true_iff]

theorem damagedAfter_listed {n : Note} (h : ns.find? (·.bad) = some n) (hu : storedTick s.rc.spans p = some u)
    (hl : ∃ e ∈ s.ac.damaged, e.1 = p) : damagedAfter s p ns = s.ac.damaged ∧ damageReports s p ns = [] := by
  simp only [damagedAfter, damageReports, h, hu, if_pos (damaged_any_iff.mpr hl), and_self]

theorem damagedAfter_new {n : Note} (h : ns.find? (·.bad) = some n) (hu : storedTick s.rc.spans p = some u)
    (hl : ∀ e ∈ s.ac.damaged, e.1 ≠ p) :
    damagedAfter s p ns = (if s.ac.damaged.length < 64 then s.ac.damaged ++ [(p, u)] else s.ac.damaged) ∧
      damageReports s p ns = if isHeld s.ru.holds u = true then [damageReport n.offset (s.fiu.openTick - 1) u] else [] := by
  have hnot : ¬ s.ac.damaged.any (fun e => decide (e.1 = p)) = true := fun ha => by
    obtain ⟨e, he, hp⟩ := damaged_any_iff.mp ha
    exact hl e he hp
  simp only [damagedAfter, damageReports, h, hu, if_neg hnot, and_self]

theorem damageReport_eq {f : Feed} {i c : Nat} (h : f.val = i / 128) :
    damageReport i c u = ⟨.evidenceDamaged, some f, none, none, none, c, u, u, none, none, false⟩ := by
  have hf : Fin.ofNat 8 (i / Config.chunkWords) = f := Fin.ext ((Nat.mod_eq_of_lt (h ▸ f.isLt)).trans h.symm)
  rw [damageReport, hf]

end damage

/-! ## What a read leaves noted -/

section noted

variable {s : State} {x : Access} {n : Nat} {word : Nat → WordRead} {bad : Nat → Bool} {got pre post : List Nat} {i u : Nat}

theorem noted_counts (h : Group) :
    ((notedAc s x n (got.map (noteOf word bad))).groups.get h).corrected = (if h = x.group then
        min ((s.ac.groups.get x.group).corrected + (got.filter (fun i => decide ((word i).outcome = .corrected))).length) 65535
      else (s.ac.groups.get h).corrected) ∧
    ((notedAc s x n (got.map (noteOf word bad))).groups.get h).uncorrectable = (if h = x.group then
        min ((s.ac.groups.get x.group).uncorrectable + (got.filter bad).length) 65535
      else (s.ac.groups.get h).uncorrectable) := by
  rw [notedAc_get]
  by_cases hh : h = x.group
  · simp only [hh, if_true, GroupRecord.count, count_corrected, count_bad, Config.count16Top, and_self]
  · simp only [if_neg hh, and_self]

/-- The first word that is remarkable is captured: as UNCORRECTABLE when it is bad, otherwise as CORRECTED (R169). -/
theorem capture_read (hnone : s.ac.capture = none)
    (hpre : ∀ q ∈ pre, bad q = false ∧ ((word q).outcome = .corrected → (s.ac.spareOf x.group x.page).quiet = true)) :
    (bad i = true → captureAfter s x n ((pre ++ i :: post).map (noteOf word bad)) =
      some ⟨x.group, x.page, i, (word i).syndrome, .uncorrectable, x.kind.requester⟩) ∧
    (bad i = false → (word i).outcome = .corrected → (s.ac.spareOf x.group x.page).quiet = false →
      captureAfter s x n ((pre ++ i :: post).map (noteOf word bad)) =
        some ⟨x.group, x.page, i, (word i).syndrome, .corrected, x.kind.requester⟩) := by
  have hfirst : firstError (s.ac.spareOf x.group x.page).quiet ((pre ++ i :: post).map (noteOf word bad)) =
      firstError (s.ac.spareOf x.group x.page).quiet (noteOf word bad i :: post.map (noteOf word bad)) := by
    rw [List.map_append, List.map_cons]
    exact firstError_first (unremarkable_notes hpre)
  exact ⟨fun hb => captureAfter_error s x n _ hnone (hfirst.trans (firstError_bad hb)),
    fun hb hc hq => captureAfter_error s x n _ hnone (hfirst.trans (firstError_corrected hb (decide_eq_true hc) hq))⟩

/-- A test read, and a read without a bad word, lists and reports nothing. -/
theorem noted_undamaged (h : x.kind.readPage = none ∨ ∀ q ∈ got, bad q = false) :
    (notedAc s x n (got.map (noteOf word bad))).damaged = s.ac.damaged ∧ notedIu s x (got.map (noteOf word bad)) = s.iu := by
  have hnothing : accessDamage s x (got.map (noteOf word bad)) = s.ac.damaged ∧ accessReports s x (got.map (noteOf word bad)) = [] := by
    unfold accessDamage accessReports
    cases hp : x.kind.readPage with
    | none => exact ⟨rfl, rfl⟩
    | some p => exact damagedAfter_none (find_bad_none (h.resolve_left fun hno => nomatch hp.symm.trans hno))
  refine ⟨hnothing.1, ?_⟩
  rw [notedIu, hnothing.2, List.append_nil]

variable {p : Nat} (hp : x.kind.readPage = some p) (hpre : ∀ q ∈ pre, bad q = false) (hi : bad i = true)
  (hu : storedTick s.rc.spans p = some u)

include hp hpre hi hu

/-- A page that is listed is not listed or reported again (R171, R172). -/
theorem noted_damagedAgain (hl : ∃ e ∈ s.ac.damaged, e.1 = p) :
    (notedAc s x n ((pre ++ i :: post).map (noteOf word bad))).damaged = s.ac.damaged ∧
      notedIu s x ((pre ++ i :: post).map (noteOf word bad)) = s.iu := by
  obtain ⟨hdamaged, hreports⟩ := damagedAfter_listed (find_bad_first (word := word) (post := post) hpre hi) hu hl
  refine ⟨?_, ?_⟩
  · exact (show _ = damagedAfter s p _ by simp only [notedAc, accessDamage, hp]).trans hdamaged
  · rw [notedIu, accessReports, hp]
    simp only [hreports, List.append_nil]

/-- A page that is not yet listed is listed if there is room, and reported when its tick is held. -/
theorem noted_damagedFirst (hl : ∀ e ∈ s.ac.damaged, e.1 ≠ p) {f : Feed} (hf : f.val = i / 128) :
    (notedAc s x n ((pre ++ i :: post).map (noteOf word bad))).damaged =
        (if s.ac.damaged.length < 64 then s.ac.damaged ++ [(p, u)] else s.ac.damaged) ∧
      notedIu s x ((pre ++ i :: post).map (noteOf word bad)) = { s.iu with reports := s.iu.reports ++
        (if ∃ e ∈ s.ru.holds, e.2.first ≤ u ∧ u ≤ e.2.last then
          [⟨.evidenceDamaged, some f, none, none, none, s.fiu.openTick - 1, u, u, none, none, false⟩] else []) } := by
  obtain ⟨hdamaged, hreports⟩ := damagedAfter_new (find_bad_first (word := word) (post := post) hpre hi) hu hl
  refine ⟨?_, ?_⟩
  · exact (show _ = damagedAfter s p _ by simp only [notedAc, accessDamage, hp]).trans hdamaged
  · have hoffset : (noteOf word bad i).offset = i := rfl
    rw [notedIu, accessReports, hp]
    simp only [hreports, hoffset, damageReport_eq hf, isHeld_iff]

end noted

/-! ## A record write (R148, R149) -/

section record

variable {s : State} {w : PageWrite}

variable {words p page : Nat} {g : Group}

theorem exec_timeout_record (wrong : WrongLanes) (hx : s.ac.access = some ⟨.record w p, g, page, false⟩)
    (hrec : s.ac.state = .recording) (hlt : words < 1024) : exec (.accessTimeout words wrong) s =
      .next ((afterFault s ⟨.record w p, g, page, false⟩ words []).writeTimedOut w) :=
  exec_timeout_recording s _ wrong hx rfl hrec (by rw [← pageOffsets_length] at hlt; exact hlt)

/-- After a first attempt the write asks for the bus again, ahead of the others (R148). -/
theorem exec_timeout_first (wrong : WrongLanes) (hx : s.ac.access = some ⟨.record w p, g, page, false⟩) (hrec : s.ac.state = .recording)
    (hretry : w.retry = false) (hlt : words < 1024) : exec (.accessTimeout words wrong) s = .next { s with
      ac := faultedAc s ⟨.record w p, g, page, false⟩ words []
      ru := faultedRu s ⟨.record w p, g, page, false⟩ words []
      rc := { s.rc with writes := { w with retry := true } :: s.rc.writes }
      li := s.li.raiseAll .archive } := by
  rw [exec_timeout_record wrong hx hrec hlt, State.writeTimedOut, if_neg (by rw [hretry]; decide), afterFault, notedIu_none s _ _ rfl]
  rfl

/-- After a retry the tick is unrecorded, reported once a run (R149). -/
theorem exec_timeout_retry (wrong : WrongLanes) (hx : s.ac.access = some ⟨.record w p, g, page, false⟩) (hrec : s.ac.state = .recording)
    (hretry : w.retry = true) (hlt : words < 1024) : exec (.accessTimeout words wrong) s = .next { s with
      ac := faultedAc s ⟨.record w p, g, page, false⟩ words []
      ru := faultedRu s ⟨.record w p, g, page, false⟩ words []
      rc := { s.rc with stall := true }
      iu := { s.iu with reports := s.iu.reports ++
        (if s.rc.stall = true then [] else [⟨.recordStall, none, none, none, none, w.tick, w.tick, w.tick, none, none, false⟩]) }
      li := s.li.raiseAll .archive } := by
  rw [exec_timeout_record wrong hx hrec hlt, State.writeTimedOut, if_pos hretry, unrecorded_eq, afterFault, notedIu_none s _ _ rfl]

/-- A record write notes no word: an empty Error Capture Record takes the timeout (R165). -/
theorem capture_record (h : s.ac.capture = none) (hlt : words < 1024) :
    captureAfter s ⟨.record w p, g, page, false⟩ words [] = some ⟨g, page, words, 0, .timeout, .recordWrite⟩ := by
  refine (captureAfter_timeout s _ words [] h nofun).trans ?_
  have hoffset : (AccessKind.record w p).offsets.getD words 0 = words := pageOffsets_getD hlt
  simp only [hoffset]
  rfl

end record

end Sys2Proof.Proofs.Recording
end

section

namespace Sys2Proof.Proofs.Recording

open Sys2Proof Sys2Proof.Machine

/-!
# ACCESS_TIMEOUT, whole (R165)
-/

section reads

variable {s : State} {words page : Nat} {g : Group} {wrong : WrongLanes} {r : ReadRequest}

theorem exec_timeout_export (hx : s.ac.access = some ⟨.exportRead r, g, page, false⟩) (hrec : s.ac.state = .recording)
    (hlt : words < 128 * r.chunks.length) : exec (.accessTimeout words wrong) s =
      .next ((afterFault s ⟨.exportRead r, g, page, false⟩ words
        (partNotes ⟨.exportRead r, g, page, false⟩ (received s ⟨.exportRead r, g, page, false⟩ words wrong))).deliver r
          (received s ⟨.exportRead r, g, page, false⟩ words wrong)) :=
  exec_timeout_recording s _ wrong hx rfl hrec (by rw [← chunkOffsets_length] at hlt; exact hlt)

/-- Of a read whose words all came clean an empty Error Capture Record takes the timeout, at the first word not received. -/
theorem capture_export {f : Feed} (hf : r.chunks[words / 128]? = some f) (hnone : s.ac.capture = none)
    (hclean : ∀ i h, i < words → r.chunks[i / 128]? = some h → (s.ac.readWord g page (128 * h.val + i % 128) wrong).outcome = .clean) :
    captureAfter s ⟨.exportRead r, g, page, false⟩ words
        (partNotes ⟨.exportRead r, g, page, false⟩ (received s ⟨.exportRead r, g, page, false⟩ words wrong)) =
      some ⟨g, page, 128 * f.val + words % 128, 0, .timeout, .exportRead⟩ := by
  rw [partNotes_read (x := ⟨.exportRead r, g, page, false⟩) (word := fun i => s.ac.readWord g page i wrong)
    (bad := fun i => decide ((s.ac.readWord g page i wrong).outcome = .uncorrectable)) (.inl ⟨r, rfl⟩) (fun _ => rfl)
    (fun i => decide_eq_true_iff.trans (or_iff_left fun h => AccessKind.noConfusion h.1).symm)]
  refine (captureAfter_timeout s _ words _ hnone (unremarkable_notes fun q hq => ?_)).trans ?_
  · obtain ⟨i, hi⟩ := List.mem_iff_getElem?.mp hq
    have hlt : i < words := by
      have := (List.getElem?_eq_some_iff.mp hi).1
      rw [List.length_take] at this
      omega
    have hi' : (chunkOffsets r.chunks)[i]? = some q := (List.getElem?_take_of_lt hlt).symm.trans hi
    rw [chunkOffsets_getElem?] at hi'
    obtain ⟨h, hh, rfl⟩ := Option.map_eq_some_iff.mp hi'
    have ho := hclean i h hlt hh
    exact ⟨decide_eq_false (ho ▸ nofun), fun hc => nomatch ho.symm.trans hc⟩
  · have hoffset : (AccessKind.exportRead r).offsets.getD words 0 = 128 * f.val + words % 128 := by
      have hget : (chunkOffsets r.chunks)[words]? = some (128 * f.val + words % 128) := by rw [chunkOffsets_getElem?, hf]; rfl
      exact (List.getD_eq_getElem?_getD ..).trans (congrArg (Option.getD · 0) hget)
    simp only [hoffset]
    rfl

theorem exec_timeout_scrub (hx : s.ac.access = some ⟨.scrub r, g, page, false⟩) (hrec : s.ac.state = .recording)
    (hlt : words < 1024) : exec (.accessTimeout words wrong) s =
      .next (afterFault s ⟨.scrub r, g, page, false⟩ words
        (partNotes ⟨.scrub r, g, page, false⟩ (received s ⟨.scrub r, g, page, false⟩ words wrong))) :=
  exec_timeout_recording s _ wrong hx rfl hrec (by rw [← pageOffsets_length] at hlt; exact hlt)

/-- A read leaves the memory as it was. -/
theorem afterNotes_dram {x : Access} {n : Nat} (hr : ∀ w p, x.kind ≠ .record w p) (ht : x.kind ≠ .testWrite) :
    (s.ac.writePart x n).dram = s.ac.dram := congrArg Ac.dram (writePart_of_read s x n hr ht)

end reads

/-- Settles O54, by requester: the record write's two attempts, the abandoned access, the reads of the Export Unit and of the scrubber, the test; and what
every read notes (`exec_timeout_notes`). -/
theorem timeoutFaultsTheGroup : Obligations.TimeoutFaultsTheGroup := by
  unfold Obligations.TimeoutFaultsTheGroup
  refine ⟨?first, ?abandoned, ?abandonedMemory, ?retry, ?exported, ?scrub, ?test, ?read⟩
  case first =>
    intro s words wrong w p page g hx hrec hretry hlt
    exact ⟨_, exec_timeout_first wrong hx hrec hretry hlt, rfl, faultedAc_faulted s ⟨.record w p, g, page, false⟩ words [],
      fun h hh => congrArg GroupRecord.state (faultedAc_others s ⟨.record w p, g, page, false⟩ words [] hh),
      faultedAc_corrected s ⟨.record w p, g, page, false⟩ words, rfl, rfl,
      congrArg (524288 * ·) (faultedAc_healthyGroups s ⟨.record w p, g, page, false⟩ words []), rfl, rfl,
      fun hnone => capture_record hnone hlt, fun c hc => captureAfter_kept s ⟨.record w p, g, page, false⟩ words [] hc,
      hrec, rfl, rfl, rfl, rfl, rfl, rfl, rfl, fun a ha => writePart_get_other s ⟨.record w p, g, page, false⟩ words ha⟩
  case abandoned =>
    intro s words wrong x hx hab
    have hexec := exec_accessTimeout words wrong hx
    rw [timeoutAccess_abandoned s x _ wrong hab] at hexec
    exact ⟨_, hexec, rfl⟩
  case abandonedMemory =>
    intro s words wrong x t hx hab hstep
    have hexec := exec_accessTimeout words wrong hx
    rw [timeoutAccess_abandoned s x _ wrong hab] at hexec
    obtain rfl := Host.Outcome.next.inj (hexec.symm.trans hstep)
    refine ⟨fun a ha => ?_, fun hr ht => afterNotes_dram hr ht⟩
    by_cases hexport : ∃ r, x.kind = .exportRead r
    · obtain ⟨r, hr⟩ := hexport
      exact congrArg (tableGet · a) (afterNotes_dram (fun w p => hr ▸ nofun) (hr ▸ nofun))
    · have hn := transferred_lt_page words fun r hr => hexport ⟨r, hr⟩
      exact writePart_get_other s x _ (by omega)
  case retry =>
    intro s words wrong w p page g hx hrec hretry hlt
    exact ⟨_, exec_timeout_retry wrong hx hrec hretry hlt, rfl, faultedAc_faulted s ⟨.record w p, g, page, false⟩ words [],
      rfl, rfl, rfl, rfl, rfl, rfl, fun hnone => capture_record hnone hlt,
      fun a ha => writePart_get_other s ⟨.record w p, g, page, false⟩ words ha⟩
  case exported =>
    intro s words wrong r page g j rest hx hrec hnodup hlt hjobs
    have hexec := exec_timeout_export (wrong := wrong) hx hrec hlt
    have hcapture {f : Feed} := capture_export (s := s) (words := words) (page := page) (g := g) (wrong := wrong) (r := r) (f := f)
    generalize partNotes _ (received s ⟨.exportRead r, g, page, false⟩ words wrong) = ns at hexec hcapture
    have hrs : received s ⟨.exportRead r, g, page, false⟩ words wrong =
      ((chunkOffsets r.chunks).take words).map (fun i => (i, s.ac.readWord g page i wrong)) := rfl
    rw [hrs] at hexec
    have hjobs' : (afterFault s ⟨.exportRead r, g, page, false⟩ words ns).xu.jobs = j :: rest := hjobs
    have hne : r.chunks ≠ [] := fun h => by
      rw [h] at hlt
      exact absurd hlt (by simp)
    have hfaulted := faultedAc_faulted s ⟨.exportRead r, g, page, false⟩ words ns
    obtain ⟨haccess, hgroups, hdram, hkept⟩ := deliver_archive (afterFault s ⟨.exportRead r, g, page, false⟩ words ns) r
      (((chunkOffsets r.chunks).take words).map (fun i => (i, s.ac.readWord g page i wrong)))
    refine ⟨_, hexec, haccess, ?_,
      hdram.trans (afterNotes_dram (x := ⟨.exportRead r, g, page, false⟩) (n := words) nofun nofun), fun ha => ?_, fun ha => ?_,
      fun f hf hnone hclean => hkept.trans (hcapture hf hnone hclean)⟩
    · rw [hgroups]
      exact hfaulted
    · rw [deliver_sending r _ hjobs' ha]
      obtain ⟨hjob, hbuffer⟩ := enterSending_map hjobs' hne
        (bufferedChunk (((chunkOffsets r.chunks).take words).map (fun i => (i, s.ac.readWord g page i wrong))))
      rw [hjob, hbuffer]
      refine ⟨rfl, ?_, fun k f hf => bufferedChunk_spec (fun i => s.ac.readWord g page i wrong) hnodup hf words⟩
      rw [List.map_map]
      exact List.map_id _
    · rw [deliver_aborted r _ hjobs' ha]
      exact endActive_endings _ j .aborted
  case scrub =>
    intro s words wrong r page g hx hrec hlt
    have hexec := exec_timeout_scrub (wrong := wrong) hx hrec hlt
    generalize partNotes _ (received s ⟨.scrub r, g, page, false⟩ words wrong) = ns at hexec
    exact ⟨_, hexec, rfl, faultedAc_faulted s ⟨.scrub r, g, page, false⟩ words ns,
      afterNotes_dram (x := ⟨.scrub r, g, page, false⟩) (n := words) nofun nofun, rfl, rfl,
      captureAfter_ne_none s ⟨.scrub r, g, page, false⟩ words ns, rfl, rfl, rfl, rfl⟩
  case test =>
    intro s words wrong k page g p hx hk htest hp
    obtain ⟨ns, hexec⟩ := exec_timeout_testing (words := words) s ⟨k, g, page, false⟩ wrong hx rfl hk htest hp
    have hn : AccessKind.transferred k words ≤ 1024 :=
      transferred_lt_page (x := ⟨k, g, page, false⟩) words fun r => by rcases hk with rfl | rfl <;> nofun
    have hmemory (a : Nat) (ha : a < (g.val * 524288 + page) * 1024 ∨ (g.val * 524288 + page) * 1024 + 1024 ≤ a) :
        tableGet (s.ac.writePart ⟨k, g, page, false⟩ (k.transferred words)).dram a = tableGet s.ac.dram a :=
      writePart_get_other s ⟨k, g, page, false⟩ _ (by simp only; omega)
    generalize AccessKind.transferred k words = n at hexec hn hmemory
    have hmarks := markedAc_marks s ⟨k, g, page, false⟩ n ns
    have hcapture := captureAfter_ne_none s ⟨k, g, page, false⟩ n ns
    rcases Nat.lt_or_ge (p.slot + 1) s.ac.bank.length with hslot | hslot
    · rw [advance_nextSlot s p ⟨k, g, page, false⟩ n ns hslot] at hexec
      exact ⟨_, hexec, rfl, (hmarks g).trans (if_pos rfl), fun h hh => (hmarks h).trans (if_neg hh), hcapture, rfl, rfl, rfl,
        fun _ => ⟨rfl, rfl, htest, markedAc_states s ⟨k, g, page, false⟩ n ns, rfl, rfl⟩, fun hlast => by omega, hmemory⟩
    · rw [advance_lastSlot s p ⟨k, g, page, false⟩ n ns hslot] at hexec
      have hkeeps (h : Group) := (testComplete_keeps (afterMark s ⟨k, g, page, false⟩ n ns) h).1
      obtain ⟨htested, hmapped⟩ := testComplete_state (afterMark s ⟨k, g, page, false⟩ n ns)
      exact ⟨_, hexec, rfl, (hkeeps g).trans ((hmarks g).trans (if_pos rfl)),
        fun h hh => (hkeeps h).trans ((hmarks h).trans (if_neg hh)), hcapture, rfl, rfl, rfl, fun hnext => by omega,
        fun _ => ⟨rfl, rfl, rfl, fun h hmem => testComplete_mapped (afterMark s ⟨k, g, page, false⟩ n ns) hmem, htested, hmapped⟩,
        hmemory⟩
  case read =>
    intro s words wrong k page g who all got word bad hx hlt hgot hkind hword hbad
    have hread : (∃ r, k = .exportRead r) ∨ (∃ r, k = .scrub r) ∨ k = .testRead :=
      hkind.imp (fun ⟨r, h⟩ => ⟨r, h.1⟩) (Or.imp (fun ⟨r, h⟩ => ⟨r, h.1⟩) And.left)
    obtain ⟨hoffsets, hwho⟩ : k.offsets = all ∧ k.requester = who := by
      rcases hkind with ⟨r, hk, hw, ha⟩ | ⟨r, hk, hw, ha⟩ | ⟨hk, hw, ha⟩ <;> rw [hk, hw, ha]
      · exact ⟨chunkOffsets_eq r.chunks, rfl⟩
      · exact ⟨pageOffsets_eq, rfl⟩
      · exact ⟨pageOffsets_eq, rfl⟩
    have hwrite : ∀ w p, k ≠ .record w p := by rcases hread with ⟨r, rfl⟩ | ⟨r, rfl⟩ | rfl <;> nofun
    obtain ⟨t, hexec, hkeeps⟩ := exec_timeout_notes (x := ⟨k, g, page, false⟩) wrong hx rfl hwrite (hoffsets.symm ▸ hlt)
    rw [partNotes_read (x := ⟨k, g, page, false⟩) hread hword hbad words] at hkeeps
    obtain rfl : (AccessKind.offsets k).take words = got := hoffsets ▸ hgot.symm
    obtain ⟨hcapture, hdamaged, hiu, hcorrected, huncorrectable⟩ := hkeeps
    refine ⟨t, hexec, fun h => ?_, fun c hc => ?_, fun pre i post hnone hgot' hpre => ?_, fun o hnone ho hclean => ?_, fun hno => ?_,
      fun pre post i u r f hr hgot' hi hpre hu hf => ?_⟩
    · obtain ⟨hc, hu⟩ := noted_counts (s := s) (x := ⟨k, g, page, false⟩) (n := words) (word := word) (bad := bad)
        (got := (AccessKind.offsets k).take words) h
      exact ⟨(hcorrected h).trans hc, (huncorrectable h).trans hu⟩
    · exact hcapture.trans (captureAfter_kept s ⟨k, g, page, false⟩ words _ hc)
    · rw [hcapture, ← hwho, hgot']
      exact capture_read (x := ⟨k, g, page, false⟩) hnone hpre
    · have hoffset : (AccessKind.offsets k).getD words 0 = o := by
        rw [List.getD_eq_getElem?_getD, hoffsets, ho]
        rfl
      rw [hcapture, ← hwho, ← hoffset]
      exact captureAfter_timeout s ⟨k, g, page, false⟩ words _ hnone (unremarkable_notes hclean)
    · have hpage : AccessKind.readPage k = none ∨ ∀ q ∈ (AccessKind.offsets k).take words, bad q = false :=
        hno.imp_left fun h : k = .testRead => by rw [h]; rfl
      rw [hdamaged, hiu]
      exact noted_undamaged (x := ⟨k, g, page, false⟩) hpage
    · have hpage : AccessKind.readPage k = some r.page := by rcases hr with rfl | rfl <;> rfl
      rw [hdamaged, hiu, hgot']
      exact ⟨noted_damagedAgain (x := ⟨k, g, page, false⟩) hpage hpre hi hu,
        fun hl => noted_damagedFirst (x := ⟨k, g, page, false⟩) hpage hpre hi hu hl hf⟩

end Sys2Proof.Proofs.Recording
end

section

namespace Sys2Proof.Proofs.Archive

open Sys2Proof Sys2Proof.Machine

/-!
# The code on each archive word and the spare lane (R166 to R168)

Syndrome, parity and the substitution of a lane are linear over exclusive or. A read of lanes driven for a word with some lanes wrong is thus the
read of its codeword, whose syndrome and parity are 0, with some of the 72 codeword bits wrong.
-/

/-! ## Syndrome and parity are linear -/

section linear

/-- What the lowest bit of a word adds to its syndrome. -/
theorem lowPosition_xor (p a b : Nat) : (if (a ^^^ b) % 2 = 1 then p else 0) =
    (if a % 2 = 1 then p else 0) ^^^ (if b % 2 = 1 then p else 0) := by
  have hbit : (a ^^^ b) % 2 = (a + b) % 2 := Nat.xor_mod_two_eq
  rw [hbit, Nat.add_mod]
  rcases Nat.mod_two_eq_zero_or_one a with ha | ha <;> rcases Nat.mod_two_eq_zero_or_one b with hb | hb <;> simp [ha, hb]

theorem xorPositions_xor (ps : List Nat) (a b : Nat) : xorPositions ps (a ^^^ b) = xorPositions ps a ^^^ xorPositions ps b := by
  induction ps generalizing a b with
  | nil => exact (Nat.xor_self 0).symm
  | cons p ps ih =>
    rw [xorPositions, xorPositions, xorPositions, Nat.xor_div_two, ih, lowPosition_xor]
    ac_rfl

theorem xorPositions_zero (ps : List Nat) : xorPositions ps 0 = 0 := by
  have h := xorPositions_xor ps 0 0
  rwa [Nat.xor_self, Nat.xor_self] at h

/-- One wrong bit gives the position of its lane. -/
theorem xorPositions_two_pow (ps : List Nat) (i : Nat) : xorPositions ps (2 ^ i) = ps.getD i 0 := by
  induction ps generalizing i with
  | nil => rfl
  | cons p ps ih =>
    cases i with
    | zero => exact (congrArg (p ^^^ ·) (xorPositions_zero ps)).trans (Nat.xor_zero p)
    | succ i =>
      have heven : 2 ^ (i + 1) % 2 = 0 := by omega
      have hhalf : 2 ^ (i + 1) / 2 = 2 ^ i := by omega
      rw [xorPositions, hhalf, ih, heven]
      exact Nat.zero_xor _

/-- The bits of a word fall to the positions in order. -/
theorem xorPositions_append (ps qs : List Nat) (d : Nat) :
    xorPositions (ps ++ qs) d = xorPositions ps d ^^^ xorPositions qs (d / 2 ^ ps.length) := by
  induction ps generalizing d with
  | nil => simp [xorPositions]
  | cons p ps ih =>
    rw [List.cons_append, xorPositions, xorPositions, ih, Nat.div_div_eq_div_mul, List.length_cons, Nat.pow_succ', Nat.xor_assoc]

/-- Bits beyond the positions do not count. -/
theorem xorPositions_add (ps : List Nat) (d e : Nat) : xorPositions ps (d + 2 ^ ps.length * e) = xorPositions ps d := by
  induction ps generalizing d with
  | nil => rfl
  | cons p ps ih =>
    have hstep : d + 2 ^ (p :: ps).length * e = d + 2 * (2 ^ ps.length * e) := by
      rw [List.length_cons, Nat.pow_succ', Nat.mul_assoc]
    have hlow : (d + 2 * (2 ^ ps.length * e)) % 2 = d % 2 := by omega
    have hhigh : (d + 2 * (2 ^ ps.length * e)) / 2 = d / 2 + 2 ^ ps.length * e := by omega
    rw [hstep, xorPositions, hlow, hhigh, ih]
    rfl

theorem parity_xor (n a b : Nat) : parity n (a ^^^ b) = (parity n a + parity n b) % 2 := by
  induction n generalizing a b with
  | zero => rfl
  | succ n ih =>
    have hbit : (a ^^^ b) % 2 = (a + b) % 2 := Nat.xor_mod_two_eq
    rw [parity, parity, parity, Nat.xor_div_two, ih]
    omega

theorem parity_zero (n : Nat) : parity n 0 = 0 := by
  induction n with
  | zero => rfl
  | succ n ih => rw [parity, Nat.zero_div, ih]

theorem parity_two_pow {n i : Nat} (h : i < n) : parity n (2 ^ i) = 1 := by
  induction n generalizing i with
  | zero => omega
  | succ n ih =>
    cases i with
    | zero => exact congrArg (fun x => (1 + x) % 2) (parity_zero n)
    | succ i =>
      have hhalf : 2 ^ (i + 1) / 2 = 2 ^ i := by omega
      rw [parity, hhalf, ih (by omega)]
      omega

theorem parity_lt_two (n d : Nat) : parity n d < 2 := by
  cases n with
  | zero => exact Nat.zero_lt_two
  | succ n => exact Nat.mod_lt _ Nat.zero_lt_two

/-- A bit above the lowest `n` counts with them. -/
theorem parity_succ_add {n d b : Nat} (hd : d < 2 ^ n) : parity (n + 1) (d + 2 ^ n * b) = (parity n d + b) % 2 := by
  induction n generalizing d with
  | zero =>
    obtain rfl : d = 0 := by omega
    simp [parity]
  | succ n ih =>
    have hstep : d + 2 ^ (n + 1) * b = d + 2 * (2 ^ n * b) := by rw [Nat.pow_succ', Nat.mul_assoc]
    have hhigh : (d + 2 * (2 ^ n * b)) / 2 = d / 2 + 2 ^ n * b := by omega
    rw [hstep, parity, hhigh, ih (by omega), parity]
    omega

end linear

/-! ## The codeword (R166) -/

section codeword

variable (d : BitVec 64)

theorem dataPositions_length : dataPositions.length = 64 := by decide

theorem xorPositions_lt {ps : List Nat} (h : ∀ p ∈ ps, p < 128) (e : Nat) : xorPositions ps e < 128 := by
  induction ps generalizing e with
  | nil => exact Nat.succ_pos 127
  | cons p ps ih =>
    have hp : (if e % 2 = 1 then p else 0) < 2 ^ 7 := by
      split
      · exact h p List.mem_cons_self
      · exact Nat.succ_pos 127
    exact Nat.xor_lt_two_pow hp (ih (fun q hq => h q (List.mem_cons_of_mem p hq)) (e / 2))

/-- The check bits c0 to c6 of a word. -/
theorem checkBits_lt : xorPositions dataPositions d.toNat < 128 := xorPositions_lt (by decide) _

theorem codewordLow_lt : codewordLow d < 2 ^ 71 := by
  have := checkBits_lt d
  have := d.isLt
  unfold codewordLow
  omega

theorem codeword_lt : codeword d < 2 ^ 72 := by
  have := codewordLow_lt d
  have := parity_lt_two 71 (codewordLow d)
  unfold codeword
  omega

/-- A codeword has an even number of ones. -/
theorem parity_codeword : parity 72 (codeword d) = 0 := by
  rw [codeword, parity_succ_add (codewordLow_lt d)]
  omega

/-- The positions of the check bits c0 to c6 give back their number. -/
theorem xorPositions_checkBits : ∀ b < 2, ∀ x < 128, xorPositions [1, 2, 4, 8, 16, 32, 64] (x + 128 * b) = x := by decide

/-- The syndrome of a codeword is 0. -/
theorem xorPositions_codeword : xorPositions lanePositions (codeword d) = 0 := by
  have hcheck := checkBits_lt d
  have hparity := parity_lt_two 71 (codewordLow d)
  have hsplit : codeword d =
      d.toNat + 2 ^ 64 * (xorPositions dataPositions d.toNat + 128 * parity 71 (codewordLow d)) := by
    unfold codeword
    rw [show codewordLow d = d.toNat + 2 ^ 64 * xorPositions dataPositions d.toNat from rfl]
    omega
  generalize parity 71 (codewordLow d) = b at hparity hsplit
  have hdata : xorPositions dataPositions (codeword d) = xorPositions dataPositions d.toNat := by
    rw [hsplit]
    exact xorPositions_add dataPositions d.toNat _
  have hbits : codeword d / 2 ^ 64 = xorPositions dataPositions d.toNat + 128 * b := by
    have := d.isLt
    omega
  rw [lanePositions, xorPositions_append, dataPositions_length, hdata, hbits, xorPositions_checkBits b hparity _ hcheck, Nat.xor_self]

theorem dataOf_xor (a b : Nat) : dataOf (a ^^^ b) = dataOf a ^^^ dataOf b := BitVec.ofNat_xor ..

theorem dataOf_codeword : dataOf (codeword d) = d := by
  apply BitVec.eq_of_toNat_eq
  have := d.isLt
  rw [dataOf, BitVec.toNat_ofNat, codeword, codewordLow]
  omega

end codeword

/-! ## Reads with wrong bits (R167) -/

section reads

variable (d : BitVec 64)

/-- The positions of the 72 lanes are distinct, and at most 71; lane 71, which holds c7, counts as position 0. -/
theorem positions_nodup : (lanePositions ++ [0]).Nodup := by decide

theorem position_le : ∀ p ∈ lanePositions ++ [0], p ≤ 71 := by decide

theorem positions_length : (lanePositions ++ [0]).length = 72 := by decide

theorem position_mem {i : Nat} (h : i < 72) : (lanePositions ++ [0])[i]? = some (lanePositions.getD i 0) := by
  have hlength : lanePositions.length = 71 := by decide
  rcases Nat.lt_or_ge i 71 with hi | hi
  · rw [List.getElem?_append_left (by omega), List.getD_eq_getElem _ _ (by omega), List.getElem?_eq_getElem]
  · obtain rfl : i = 71 := by omega
    decide

/-- A position points back at its data bit, or at none. -/
theorem findIdx_position : ∀ i < 72, dataPositions.findIdx? (fun p => p == lanePositions.getD i 0) = if i < 64 then some i else none := by
  decide

theorem invertAt_position {i : Nat} (h : i < 72) : invertAt (lanePositions.getD i 0) (d ^^^ dataOf (2 ^ i)) = d := by
  unfold invertAt
  rw [findIdx_position i h]
  by_cases hi : i < 64
  · rw [if_pos hi]
    simp only [dataOf, BitVec.xor_assoc, BitVec.xor_self, BitVec.xor_zero]
  · rw [if_neg hi]
    have hdata : dataOf (2 ^ i) = 0#64 := by
      apply BitVec.eq_of_toNat_eq
      rw [dataOf, BitVec.toNat_ofNat]
      exact Nat.mod_eq_zero_of_dvd (Nat.pow_dvd_pow 2 (by omega))
    simp only [hdata, BitVec.xor_zero]

theorem readCodeword_clean : (readCodeword (codeword d)).outcome = .clean ∧ (readCodeword (codeword d)).data = d := by
  simp only [readCodeword, parity_codeword, xorPositions_codeword, dataOf_codeword, if_true, and_self]

/-- One wrong bit is corrected. -/
theorem readCodeword_single {i : Nat} (h : i < 72) :
    (readCodeword (codeword d ^^^ 2 ^ i)).outcome = .corrected ∧ (readCodeword (codeword d ^^^ 2 ^ i)).data = d := by
  have hsyndrome : xorPositions lanePositions (codeword d ^^^ 2 ^ i) = lanePositions.getD i 0 := by
    rw [xorPositions_xor, xorPositions_codeword, xorPositions_two_pow, Nat.zero_xor]
  have hparity : parity 72 (codeword d ^^^ 2 ^ i) = 1 := by
    rw [parity_xor, parity_codeword, parity_two_pow h]
  have hdata : dataOf (codeword d ^^^ 2 ^ i) = d ^^^ dataOf (2 ^ i) := by
    rw [dataOf_xor, dataOf_codeword]
  have hle : lanePositions.getD i 0 ≤ 71 := position_le _ (List.mem_of_getElem? (position_mem h))
  simp only [readCodeword, hsyndrome, hparity, hdata, if_pos hle, invertAt_position d h, Nat.one_ne_zero, if_false, and_self]

/-- Two wrong bits are reported. -/
theorem readCodeword_double {i j : Nat} (hi : i < 72) (hj : j < 72) (hne : i ≠ j) :
    (readCodeword (codeword d ^^^ 2 ^ i ^^^ 2 ^ j)).outcome = .uncorrectable := by
  have hsyndrome : xorPositions lanePositions (codeword d ^^^ 2 ^ i ^^^ 2 ^ j) = lanePositions.getD i 0 ^^^ lanePositions.getD j 0 := by
    rw [xorPositions_xor, xorPositions_xor, xorPositions_codeword, xorPositions_two_pow, xorPositions_two_pow, Nat.zero_xor]
  have hparity : parity 72 (codeword d ^^^ 2 ^ i ^^^ 2 ^ j) = 0 := by
    rw [parity_xor, parity_xor, parity_codeword, parity_two_pow hi, parity_two_pow hj]
  have hpositions : lanePositions.getD i 0 ^^^ lanePositions.getD j 0 ≠ 0 := fun h => by
    have hsame := (position_mem hi).trans ((congrArg some (Nat.xor_eq_zero_iff.mp h)).trans (position_mem hj).symm)
    exact hne ((List.getElem?_inj (by rw [positions_length]; exact hi) positions_nodup).mp hsame)
  simp only [readCodeword, hsyndrome, hparity, if_true, if_neg hpositions]

end reads

/-! ## Lanes and codeword (R168) -/

section lanes

/-- Bit `k` of a number replaced by `b`. -/
theorem testBit_replace (w k : Nat) (b : Bool) (i : Nat) :
    (w - 2 ^ k * (w / 2 ^ k % 2) + 2 ^ k * b.toNat).testBit i = if i = k then b else w.testBit i := by
  have hparts : w - 2 ^ k * (w / 2 ^ k % 2) + 2 ^ k * b.toNat = 2 ^ k * (2 * (w / 2 ^ k / 2) + b.toNat) + w % 2 ^ k := by
    have hw := Nat.div_add_mod w (2 ^ k)
    have hq := congrArg (2 ^ k * ·) (Nat.div_add_mod (w / 2 ^ k) 2)
    simp only [Nat.mul_add] at hq ⊢
    omega
  have hself := Nat.testBit_two_pow_mul_add (w / 2 ^ k) (Nat.mod_lt w (Nat.two_pow_pos k)) i
  rw [Nat.div_add_mod] at hself
  rw [hparts, Nat.testBit_two_pow_mul_add _ (Nat.mod_lt _ (Nat.two_pow_pos k)), hself]
  rcases Nat.lt_trichotomy i k with hlt | rfl | hgt
  · rw [if_pos hlt, if_pos hlt, if_neg (by omega)]
  · rw [if_neg (by omega), if_pos rfl, Nat.sub_self]
    cases b <;> simp
  · obtain ⟨m, hm⟩ : ∃ m, i - k = m + 1 := ⟨i - k - 1, by omega⟩
    have hhalf : (2 * (w / 2 ^ k / 2) + b.toNat) / 2 = w / 2 ^ k / 2 := by
      have := b.toNat_lt
      omega
    rw [if_neg (by omega), if_neg (by omega), if_neg (by omega), hm, Nat.testBit_succ, Nat.testBit_succ, hhalf]

variable {spare : Option Nat} (hspare : ∀ k, spare = some k → k < 72)

/-- The lane that a codeword bit is read from: lane 72 for the substituted lane, its own otherwise. -/
def laneRead (spare : Option Nat) (i : Nat) : Nat := if spare = some i then 72 else i

include hspare in
theorem codewordRead_testBit (lanes : BitVec 73) (i : Nat) :
    (codewordRead spare lanes).testBit i = (decide (i < 72) && lanes.getLsbD (laneRead spare i)) := by
  unfold codewordRead laneRead
  cases spare with
  | none => simp only [reduceCtorEq, if_false, Nat.testBit_mod_two_pow, BitVec.getLsbD]
  | some k =>
    have hk := hspare k rfl
    have htop : lanes.toNat / 2 ^ 72 = (lanes.getLsbD 72).toNat := by
      have hlt := lanes.isLt
      rw [BitVec.getLsbD, Nat.toNat_testBit]
      omega
    simp only [htop, testBit_replace, Nat.testBit_mod_two_pow, Option.some.injEq]
    by_cases h : i = k
    · rw [if_pos h, if_pos h.symm, decide_eq_true (h ▸ hk), Bool.true_and]
    · rw [if_neg h, if_neg (Ne.symm h), BitVec.getLsbD]

include hspare in
theorem codewordRead_xor (a b : BitVec 73) : codewordRead spare (a ^^^ b) = codewordRead spare a ^^^ codewordRead spare b := by
  apply Nat.eq_of_testBit_eq
  intro i
  rw [Nat.testBit_xor, codewordRead_testBit hspare, codewordRead_testBit hspare, codewordRead_testBit hspare, BitVec.getLsbD_xor]
  cases decide (i < 72) <;> simp

theorem getLsbD_two_pow {n : Nat} (h : n < 73) (i : Nat) : (BitVec.ofNat 73 (2 ^ n)).getLsbD i = decide (n = i) := by
  rw [BitVec.getLsbD_ofNat, Nat.testBit_two_pow]
  by_cases hi : n = i
  · rw [decide_eq_true hi, decide_eq_true (hi ▸ h), Bool.true_and]
  · rw [decide_eq_false hi, Bool.and_false]

include hspare in
/-- A wrong lane is a wrong codeword bit: none where the lane is disregarded. -/
theorem codewordRead_lane {n m : Nat} (hn : n < 73) (hm : m < 72) (h : ∀ i, i < 72 → (n = laneRead spare i ↔ m = i)) :
    codewordRead spare (BitVec.ofNat 73 (2 ^ n)) = 2 ^ m := by
  apply Nat.eq_of_testBit_eq
  intro i
  rw [codewordRead_testBit hspare, getLsbD_two_pow hn, Nat.testBit_two_pow]
  by_cases hi : i < 72
  · rw [decide_eq_true hi, Bool.true_and, decide_eq_decide]
    exact h i hi
  · rw [decide_eq_false hi, Bool.false_and, decide_eq_false (by omega)]

include hspare in
theorem codewordRead_disregarded {n : Nat} (hn : n < 73) (h : ∀ i, i < 72 → n ≠ laneRead spare i) :
    codewordRead spare (BitVec.ofNat 73 (2 ^ n)) = 0 := by
  apply Nat.eq_of_testBit_eq
  intro i
  rw [codewordRead_testBit hspare, getLsbD_two_pow hn, Nat.zero_testBit]
  by_cases hi : i < 72
  · rw [decide_eq_false (h i hi), Bool.and_false]
  · rw [decide_eq_false hi, Bool.false_and]

include hspare in
/-- The lanes driven for a word hold its codeword. -/
theorem codewordRead_lanesOf (d : BitVec 64) : codewordRead spare (lanesOf spare d) = codeword d := by
  have hlt := codeword_lt d
  unfold codewordRead lanesOf
  cases spare with
  | none =>
    simp only [BitVec.toNat_ofNat]
    omega
  | some k =>
    have hbit : codeword d / 2 ^ k % 2 < 2 := Nat.mod_lt _ Nat.zero_lt_two
    have hpart : 2 ^ k * (codeword d / 2 ^ k % 2) ≤ codeword d :=
      (Nat.mul_le_mul_left _ (Nat.mod_le _ _)).trans (Nat.mul_div_le _ _)
    simp only [BitVec.toNat_ofNat]
    generalize hb : codeword d / 2 ^ k % 2 = b at hbit hpart
    have hlanes : (codeword d + 2 ^ 72 * b) % 2 ^ 73 = codeword d + 2 ^ 72 * b := Nat.mod_eq_of_lt (by omega)
    have hlow : (codeword d + 2 ^ 72 * b) % 2 ^ 72 = codeword d := by omega
    have hhigh : (codeword d + 2 ^ 72 * b) / 2 ^ 72 = b := by omega
    rw [hlanes, hlow, hhigh, hb, Nat.sub_add_cancel hpart]

end lanes

/-! ## Reads with wrong lanes -/

section wrongLanes

variable {spare : Option Nat} (hspare : ∀ k, spare = some k → k < 72) (d : BitVec 64)

include hspare

/-- The read of a word with wrong lanes is the read of its codeword with the wrong bits they give. -/
theorem readLanes_xor (e : BitVec 73) : readLanes spare (lanesOf spare d ^^^ e) = readCodeword (codeword d ^^^ codewordRead spare e) := by
  rw [readLanes, codewordRead_xor hspare, codewordRead_lanesOf hspare]

theorem codewordRead_own {i : Nat} (hi : i < 72) (hne : spare ≠ some i) : codewordRead spare (BitVec.ofNat 73 (2 ^ i)) = 2 ^ i := by
  refine codewordRead_lane hspare (by omega) hi fun j hj => ?_
  unfold laneRead
  by_cases h : spare = some j
  · rw [if_pos h]
    exact iff_of_false (by omega) fun hij => hne (hij ▸ h)
  · rw [if_neg h]

theorem codewordRead_substituted {k : Nat} (hk : spare = some k) : codewordRead spare (BitVec.ofNat 73 (2 ^ k)) = 0 := by
  have hlt := hspare k hk
  refine codewordRead_disregarded hspare (by omega) fun i hi => ?_
  unfold laneRead
  by_cases h : spare = some i
  · rw [if_pos h]
    omega
  · rw [if_neg h]
    exact fun hki => h (hki ▸ hk)

/-- Lane 72 stands for the substituted lane. -/
theorem codewordRead_spare {k : Nat} (hk : spare = some k) : codewordRead spare (BitVec.ofNat 73 (2 ^ 72)) = 2 ^ k := by
  refine codewordRead_lane hspare (by omega) (hspare k hk) fun i hi => ?_
  unfold laneRead
  rw [hk]
  by_cases h : k = i
  · rw [h, if_pos rfl]
    exact iff_of_true rfl rfl
  · rw [if_neg fun heq => h (Option.some.inj heq)]
    exact iff_of_false (by omega) h

end wrongLanes

/-- Settles O56: a wrong lane is a wrong bit of the codeword or none, and `readCodeword_single` and `readCodeword_double` say what the code makes
of those. -/
theorem singleErrorsAreCorrected : Obligations.SingleErrorsAreCorrected := by
  unfold Obligations.SingleErrorsAreCorrected
  intro d spare hspare
  have hclean : readLanes spare (lanesOf spare d) = readCodeword (codeword d) := by rw [readLanes, codewordRead_lanesOf hspare]
  have hsingle {n m : Nat} (hm : m < 72) (h : codewordRead spare (BitVec.ofNat 73 (2 ^ n)) = 2 ^ m) :
      (readLanes spare (lanesOf spare d ^^^ BitVec.ofNat 73 (2 ^ n))).outcome = .corrected ∧
        (readLanes spare (lanesOf spare d ^^^ BitVec.ofNat 73 (2 ^ n))).data = d := by
    rw [readLanes_xor hspare, h]
    exact readCodeword_single d hm
  have hdouble {i n m : Nat} (hi : i < 72) (hne : spare ≠ some i) (hm : m < 72) (him : i ≠ m)
      (h : codewordRead spare (BitVec.ofNat 73 (2 ^ n)) = 2 ^ m) :
      (readLanes spare (lanesOf spare d ^^^ BitVec.ofNat 73 (2 ^ i) ^^^ BitVec.ofNat 73 (2 ^ n))).outcome = .uncorrectable := by
    rw [BitVec.xor_assoc, readLanes_xor hspare, codewordRead_xor hspare, codewordRead_own hspare hi hne, h, ← Nat.xor_assoc]
    exact readCodeword_double d hi hm him
  refine ⟨?clean, ?data, ?substituted, ?single, ?double, ?disregarded, ?standIn⟩
  case clean => exact hclean ▸ (readCodeword_clean d).1
  case data => exact hclean ▸ (readCodeword_clean d).2
  case substituted =>
    intro k hk
    rw [readLanes_xor hspare, codewordRead_substituted hspare hk, Nat.xor_zero, hclean]
  case single => exact fun i hi hne => hsingle hi (codewordRead_own hspare hi hne)
  case double =>
    exact fun i j hij hj hnei hnej => hdouble (by omega) hnei hj (by omega) (codewordRead_own hspare hj hnej)
  case disregarded =>
    intro hnone lanes
    have hzero : codewordRead spare (BitVec.ofNat 73 (2 ^ 72)) = 0 := by
      refine codewordRead_disregarded hspare (by omega) fun i hi => ?_
      have hnot : spare ≠ some i := hnone ▸ nofun
      rw [laneRead, if_neg hnot]
      omega
    rw [readLanes, codewordRead_xor hspare, hzero, Nat.xor_zero, readLanes]
  case standIn =>
    intro k hk
    have hspared := codewordRead_spare hspare hk
    obtain ⟨houtcome, hdata⟩ := hsingle (hspare k hk) hspared
    exact ⟨houtcome, hdata, fun i hi hik => hdouble hi (fun h => hik (Option.some.inj (h.symm.trans hk))) (hspare k hk) hik hspared⟩

end Sys2Proof.Proofs.Archive
end

section

namespace Sys2Proof.Proofs.Archive

open Sys2Proof Sys2Proof.Machine

/-!
# ARCHIVE_MAP, ARCHIVE_TEST, ARCHIVE_RECORD and SPARE_LANE_SET (R156 to R159, R162, R168)
-/

/-! ## ARCHIVE_MAP's list (R158) -/

section groups

variable {bs : List Byte} {gs : List Group}

theorem groupOf_isSome_iff {b : Byte} : (groupOf b).isSome = true ↔ b.toNat ≤ 3 := by
  unfold groupOf
  split
  · exact iff_of_true rfl (by omega)
  · exact iff_of_false (by decide) (by omega)

/-- Bytes that all name groups are the numbers of the groups they name. -/
theorem map_filterMap_groupOf (h : ∀ b ∈ bs, (groupOf b).isSome = true) : (bs.filterMap groupOf).map Fin.val = bs.map BitVec.toNat := by
  induction bs with
  | nil => rfl
  | cons b bs ih =>
    obtain ⟨g, hg⟩ := Option.isSome_iff_exists.mp (h b List.mem_cons_self)
    rw [List.filterMap_cons_some hg, List.map_cons, List.map_cons, ih fun c hc => h c (List.mem_cons_of_mem b hc), groupOf_eq_some.mp hg]

theorem filterMap_groupOf_of_map (h : bs.map BitVec.toNat = gs.map Fin.val) : bs.filterMap groupOf = gs := by
  induction bs generalizing gs with
  | nil => exact (List.map_eq_nil_iff.mp h.symm).symm
  | cons b bs ih =>
    cases gs with
    | nil => cases h
    | cons g gs =>
      obtain ⟨hb, hbs⟩ := List.cons.inj h
      rw [List.filterMap_cons_some (groupOf_eq_some.mpr hb), ih hbs]

/-- The list is refused when it is empty or too long, names no group or names one twice. -/
theorem groupsOf_refused (h : bs = [] ∨ 4 < bs.length ∨ (∃ b ∈ bs, 3 < b.toNat) ∨ ¬ bs.Nodup) : groupsOf bs = none := by
  refine if_pos (h.imp_right (Or.imp_right fun h => ?_))
  by_cases hlength : (bs.filterMap groupOf).length = bs.length
  · have hall := List.filterMap_length_eq_length.mp hlength
    rcases h with ⟨b, hb, hlt⟩ | hdup
    · have := groupOf_isSome_iff.mp (hall b hb)
      omega
    · refine .inr fun hnodup => hdup (List.Nodup.of_map BitVec.toNat ?_)
      rw [← map_filterMap_groupOf hall]
      exact hnodup.map Fin.val_injective
  · exact .inl hlength

theorem groupsOf_accepted (hne : gs ≠ []) (hnodup : gs.Nodup) (h : bs.map BitVec.toNat = gs.map Fin.val) : groupsOf bs = some gs := by
  have hlength : bs.length = gs.length := by simpa using congrArg List.length h
  have hfour : gs.length ≤ 4 := hnodup.length_le_card
  have hgroups := filterMap_groupOf_of_map h
  unfold groupsOf
  rw [hgroups]
  refine if_neg ?_
  rintro (rfl | hlong | hother | hdup)
  · exact hne hgroups.symm
  · omega
  · exact hother hlength.symm
  · exact hdup hnodup

end groups

/-! ## The group states -/

section states

/-- Without a HEALTHY group in the bank no page is healthy (R123, R157). -/
theorem healthyGroups_eq_zero {ac : Ac} (h : ∀ g ∈ ac.bank, (ac.groups.get g).state ≠ .healthy) : ac.healthyGroups = 0 :=
  List.length_eq_zero_iff.mpr (List.filter_eq_nil_iff.mpr fun g hg hhealthy => h g hg (of_decide_eq_true hhealthy))

/-- The archive's pages all stop being healthy when no group of the bank is HEALTHY. -/
theorem regroup_of_none_healthy (s : State) {ac : Ac} (h : ∀ g ∈ ac.bank, (ac.groups.get g).state ≠ .healthy) :
    s.regroup ac = { s with ac := ac, ru := { s.ru with healthyPages := 0, quota := 0 } } := by
  rw [State.regroup_eq, healthyGroups_eq_zero h]

theorem mappedGroups_get (ac : Ac) (gs : List Group) (g : Group) : (ac.mappedGroups gs).get g =
    if g ∈ gs then { ac.groups.get g with state := .untested, corrected := 0, uncorrectable := 0 }
    else { ac.groups.get g with state := .absent } := Quad.get_tab _ g

theorem testGroups_get (ac : Ac) (g : Group) :
    ac.testGroups.get g = if g ∈ ac.bank then ⟨.untested, 0, 0, false⟩ else ac.groups.get g := Quad.get_tab _ g

end states

/-! ## The requests -/

section requests

variable {l : Link} {s : State}

theorem archiveMapTaken_busy (bs : List Byte) (h : s.ac.state = .testing ∨ s.ac.state = .recording) :
    archiveMapTaken bs s = (s, ⟨.wrongState, []⟩) := if_pos h

theorem archiveMapTaken_refused {bs : List Byte} (hidle : ¬ (s.ac.state = .testing ∨ s.ac.state = .recording)) (h : groupsOf bs = none) :
    archiveMapTaken bs s = (s, ⟨.badArgument, []⟩) := by
  unfold archiveMapTaken
  rw [if_neg hidle, h]
  rfl

theorem archiveMapTaken_mapped {bs : List Byte} {gs : List Group} (hidle : ¬ (s.ac.state = .testing ∨ s.ac.state = .recording))
    (h : groupsOf bs = some gs) : archiveMapTaken bs s = ({ s with
      ac := { s.ac with state := .mapped, bank := gs, groups := s.ac.mappedGroups gs }
      ru := { s.ru with healthyPages := 0, quota := 0 }
      li := s.li.raiseAll .archive }, ⟨.ok, bankFields gs ++ [.long (524288 * gs.length)]⟩) := by
  unfold archiveMapTaken
  rw [if_neg hidle, h]
  simp only
  rw [regroup_of_none_healthy]
  · rfl
  · intro g hg
    have hget := mappedGroups_get s.ac gs g
    rw [if_pos hg] at hget
    rw [hget]
    nofun

theorem archiveTestTaken_refused (hm : s.ac.state ≠ .mapped) (ht : s.ac.state ≠ .tested) :
    archiveTestTaken () s = (s, ⟨.wrongState, []⟩) := if_neg (not_or.mpr ⟨hm, ht⟩)

theorem archiveTestTaken_begun (h : s.ac.state = .mapped ∨ s.ac.state = .tested) : archiveTestTaken () s = ({ s with
      ac := { s.ac with state := .testing, test := some ⟨0, 0, false⟩, testRequest := true, groups := s.ac.testGroups }
      ru := { s.ru with healthyPages := 0, quota := 0 }
      li := s.li.raiseAll .archive }, ⟨.ok, [.long (524288 * s.ac.bank.length)]⟩) := by
  unfold archiveTestTaken
  rw [if_pos h, regroup_of_none_healthy]
  · rfl
  · intro g hg
    have hget := testGroups_get s.ac g
    rw [if_pos hg] at hget
    rw [hget]
    nofun

theorem archiveRecordTaken_refused (h : s.ac.state ≠ .tested) : archiveRecordTaken () s = (s, ⟨.wrongState, []⟩) := if_neg h

theorem archiveRecordTaken_begun (h : s.ac.state = .tested) : archiveRecordTaken () s = ({ s with
      ac := { s.ac with state := .recording, scrub := none }
      rc := { s.rc with writePos := 0, stall := false }
      li := s.li.raiseAll .archive }, ⟨.ok, [.long (524288 * s.ac.bank.length), .long s.ru.healthyPages]⟩) := if_pos h

/-- A refused request changes nothing but the link's slot. -/
theorem passRequest_refused {α : Type} {k : Nat} {a : α} {body : α → State → State × Reply} {r : Reply} (h : s.mayAsk l k)
    (hbody : ∀ s' : State, s'.ac = s.ac → body a s' = (s', r)) : passRequest k l (.fits a) s body = { s with li := s.li.passed l k r } :=
  Loudness.passRequest_of_read h fun li => hbody (s.withLi li) rfl

/-- A request that its block takes: what it leaves, and its reply on its way. -/
theorem passRequest_taken {α : Type} {k : Nat} {a : α} {body : α → State → State × Reply} {t : State} {r : Reply} (h : s.mayAsk l k)
    (hbody : body a (s.withLi (s.li.await l (BitVec.ofNat 8 k))) = (t, r)) :
    passRequest k l (.fits a) s body = t.sendReply l s.li.nextRequest r := by
  rw [passRequest_fits a body h, hbody]

end requests

/-! ## SPARE_LANE_SET (R168) -/

section spare

variable {s : State} {a : SpareLaneSetArgs}

theorem spareLaneTaken_badArgument (h : 3 < a.group.toNat ∨ 15 < a.rowBlock.toNat ∨ ∃ k, a.lane = some k ∧ 72 < k.toNat) :
    spareLaneTaken a s = (s, ⟨.badArgument, []⟩) := by
  unfold spareLaneTaken
  split
  · next g e hg he =>
    rcases h with hgroup | hrow | ⟨k, hk, hlane⟩
    · have := groupOf_eq_some.mp hg
      omega
    · exact if_pos hrow
    · have hnone : spareEntryOf a = none := by
        unfold spareEntryOf
        rw [hk]
        cases choiceOf a.quiet with
        | none => rfl
        | some q => exact if_pos hlane
      cases he.symm.trans hnone
  · rfl

theorem spareEntryOf_eq {q : Bool} {n : Option Nat} (hq : a.quiet.toNat = q.toNat)
    (hn : a.lane = none ∧ n = none ∨ a.lane = some 72 ∧ n = none ∨ (∃ k, a.lane = some k ∧ k.toNat < 72 ∧ n = some k.toNat)) :
    spareEntryOf a = some ⟨n, q⟩ := by
  unfold spareEntryOf
  rw [Incidents.choiceOf_of_toNat hq]
  rcases hn with ⟨hlane, rfl⟩ | ⟨hlane, rfl⟩ | ⟨k, hlane, hlt, rfl⟩
  · rw [hlane]
  · rw [hlane]
    rfl
  · rw [hlane]
    simp only
    rw [if_neg (by omega), if_neg (by omega)]

variable {g : Group} {e : SpareEntry} (hg : a.group.toNat = g.val) (hrow : a.rowBlock.toNat < 16) (he : spareEntryOf a = some e)

include hg hrow he

theorem spareLaneTaken_stored (h : s.ac.state = .mapped ∨ s.ac.state = .tested) : spareLaneTaken a s =
    ({ s with ac := { s.ac with spares := s.ac.spares.set g ((s.ac.spares.get g).set a.rowBlock.toNat e) } }, ⟨.ok, spareFields e⟩) := by
  unfold spareLaneTaken
  rw [groupOf_eq_some.mpr hg, he]
  simp only
  rw [if_neg (by omega), if_pos h]
  rfl

theorem spareLaneTaken_wrongState (hm : s.ac.state ≠ .mapped) (ht : s.ac.state ≠ .tested) :
    spareLaneTaken a s = (s, ⟨.wrongState, []⟩) := by
  unfold spareLaneTaken
  rw [groupOf_eq_some.mpr hg, he]
  simp only
  rw [if_neg (by omega), if_neg (not_or.mpr ⟨hm, ht⟩)]
  rfl

end spare

/-- Settles O51, request by request: each is refused, or its block takes it as the lemmas above say. -/
theorem archiveStateMovesOnRequest : Obligations.ArchiveStateMovesOnRequest := by
  unfold Obligations.ArchiveStateMovesOnRequest
  refine ⟨fun l bs s h => ⟨fun hbusy => ?_, fun ht hr => ⟨fun hbad => ?_, fun gs hne hnodup hbs => ?_⟩⟩,
    fun l s h => ⟨fun hm ht => ?_, fun hstate => ?_⟩, fun l s h => ⟨fun ht => ?_, fun ht => ?_⟩,
    fun l a s h => ⟨fun hbad => ?_, fun g q n hg hrow hq hn => ⟨fun hstate => ?_, fun hm ht => ?_⟩⟩⟩
  · exact congrArg Host.Outcome.next (passRequest_refused h fun s' hs => archiveMapTaken_busy bs (hs ▸ hbusy))
  · have hidle := not_or.mpr ⟨ht, hr⟩
    exact congrArg Host.Outcome.next (passRequest_refused h fun s' hs => archiveMapTaken_refused (hs ▸ hidle) (groupsOf_refused hbad))
  · have hidle := not_or.mpr ⟨ht, hr⟩
    have hfields : bankFields gs = ((List.range 4).map (fun i =>
        match gs[i]? with | none => [.byte 0] | some g => [.byte 1, .byte g.val])).flatten :=
      congrArg List.flatten (List.map_congr_left fun i _ => by cases gs[i]? <;> rfl)
    have hexec := passRequest_taken h (archiveMapTaken_mapped hidle (groupsOf_accepted hne hnodup hbs))
    rw [hfields] at hexec
    refine ⟨_, congrArg Host.Outcome.next hexec, rfl, fun g => ⟨fun hg => ?_, fun hg => ?_⟩⟩
    · exact (mappedGroups_get s.ac gs g).trans (if_pos hg)
    · exact (mappedGroups_get s.ac gs g).trans (if_neg hg)
  · exact congrArg Host.Outcome.next (passRequest_refused h fun s' hs => archiveTestTaken_refused (hs ▸ hm) (hs ▸ ht))
  · refine ⟨_, congrArg Host.Outcome.next (passRequest_taken h (archiveTestTaken_begun hstate)), rfl, fun g => ⟨fun hg => ?_, fun hg => ?_⟩⟩
    · exact (testGroups_get s.ac g).trans (if_pos hg)
    · exact (testGroups_get s.ac g).trans (if_neg hg)
  · exact congrArg Host.Outcome.next (passRequest_refused h fun s' hs => archiveRecordTaken_refused (hs ▸ ht))
  · exact congrArg Host.Outcome.next (passRequest_taken h (archiveRecordTaken_begun ht))
  · exact congrArg Host.Outcome.next (passRequest_refused h fun s' _ => spareLaneTaken_badArgument hbad)
  · have hexec := passRequest_taken h (spareLaneTaken_stored hg hrow (spareEntryOf_eq hq hn) hstate)
    refine congrArg Host.Outcome.next (hexec.trans ?_)
    cases n <;> rfl
  · exact congrArg Host.Outcome.next (passRequest_refused h fun s' hs =>
      spareLaneTaken_wrongState hg hrow (spareEntryOf_eq hq hn) (hs ▸ hm) (hs ▸ ht))

end Sys2Proof.Proofs.Archive
end

section

namespace Sys2Proof.Proofs.Archive

open Sys2Proof Sys2Proof.Machine Sys2Proof.Proofs.Recording

/-!
# Completed reads and writes of the Archive Bus (R160, R161, R169 to R172, R174, R175)

What a completed read notes is said once, for the scrubber, the test and the Export Unit alike: `readAc` for the counts and the capture,
`damagedAfter` and `damageReports` for the damage.
-/

/-! ## The notes of a completed read -/

section notes

variable (s : State) (g : Group) (page : Nat) (who : Requester) (ns : List Note)

/-- The Archive Controller after a read of a page has ended with `ns` noted (R169, R170). -/
def readAc : Ac := { s.ac with
  access := none
  groups := s.ac.groups.update g (·.count ns)
  capture := s.ac.capture.or ((firstError (s.ac.spareOf g page).quiet ns).map (fun e => ⟨g, page, e.1.offset, e.1.syndrome, e.2, who⟩)) }

theorem noteRead_readAc : Ac.noteRead { s.ac with access := none } g page who ns = readAc s g page who ns := noteRead_eq ns _ g page who

theorem readAc_get (h : Group) :
    (readAc s g page who ns).groups.get h = if h = g then (s.ac.groups.get h).count ns else s.ac.groups.get h := Quad.get_update _ _ _ _

theorem readAc_capture_kept {c : Capture} (h : s.ac.capture = some c) : (readAc s g page who ns).capture = some c := by
  rw [readAc, h, Option.some_or]

variable {s g page who} {word : Nat → WordRead} {bad : Nat → Bool} {offsets : List Nat}

/-- The counts of the group that was read (R170). -/
theorem count_notes (x : GroupRecord) : x.count (offsets.map (noteOf word bad)) = { x with
    corrected := min (x.corrected + (offsets.filter (fun i => decide ((word i).outcome = .corrected))).length) 65535
    uncorrectable := min (x.uncorrectable + (offsets.filter bad).length) 65535 } := by
  rw [GroupRecord.count, count_corrected, count_bad, Config.count16Top]

/-- The first remarkable word of a read is captured: as UNCORRECTABLE when it is bad, otherwise as CORRECTED (R169). -/
theorem readAc_capture {before after : List Nat} {i : Nat} (hsplit : offsets = before ++ i :: after) (hnone : s.ac.capture = none)
    (hbefore : ∀ k ∈ before, bad k = false ∧ ((word k).outcome = .corrected → (s.ac.spareOf g page).quiet = true)) :
    (bad i = true → (readAc s g page who (offsets.map (noteOf word bad))).capture =
      some ⟨g, page, i, (word i).syndrome, .uncorrectable, who⟩) ∧
    (bad i = false → (word i).outcome = .corrected → (s.ac.spareOf g page).quiet = false →
      (readAc s g page who (offsets.map (noteOf word bad))).capture = some ⟨g, page, i, (word i).syndrome, .corrected, who⟩) := by
  have hcapture {e : Note × CaptureKind} (he : firstError (s.ac.spareOf g page).quiet
      (noteOf word bad i :: after.map (noteOf word bad)) = some e) :
      (readAc s g page who (offsets.map (noteOf word bad))).capture = some ⟨g, page, e.1.offset, e.1.syndrome, e.2, who⟩ := by
    rw [readAc, hnone, Option.none_or, hsplit, List.map_append, List.map_cons, firstError_first (unremarkable_notes hbefore), he,
      Option.map_some]
  exact ⟨fun hb => hcapture (firstError_bad hb), fun hb hc hq => hcapture (firstError_corrected hb (decide_eq_true hc) hq)⟩

end notes

/-! ## A plain read: by the scrubber or the Export Unit -/

section plain

variable (word : Nat → WordRead)

/-- A word that the code could not correct (R167). -/
def uncorrectable (i : Nat) : Bool := decide ((word i).outcome = .uncorrectable)

/-- The notes of the words at the given offsets. -/
def plainNotes (offsets : List Nat) : List Note := offsets.map (noteOf word (uncorrectable word))

/-- The words of a read with their offsets. -/
theorem readWords_eq {s : State} {g : Group} {page : Nat} {wrong : WrongLanes} (h : ∀ i, word i = s.ac.readWord g page i wrong)
    (offsets : List Nat) : s.ac.readWords g page offsets wrong = offsets.map (fun w => (w, word w)) := by
  rw [funext h]
  rfl

theorem plainNotes_readWords {s : State} {g : Group} {page : Nat} {wrong : WrongLanes} (h : ∀ i, word i = s.ac.readWord g page i wrong)
    (offsets : List Nat) : (s.ac.readWords g page offsets wrong).map plainNote = plainNotes word offsets := by
  rw [readWords_eq word h]
  exact List.map_map

variable {word}

theorem uncorrectable_eq_false {i : Nat} (h : (word i).outcome ≠ .uncorrectable) : uncorrectable word i = false := decide_eq_false h

/-- A word the capture passes over: clean, or corrected in a quiet row block (R169). -/
theorem passedOver {quiet : Bool} {i : Nat} (h : (word i).outcome = .clean ∨ (word i).outcome = .corrected ∧ quiet = true) :
    uncorrectable word i = false ∧ ((word i).outcome = .corrected → quiet = true) := by
  rcases h with h | ⟨h, hq⟩
  · exact ⟨uncorrectable_eq_false (h ▸ nofun), fun hc => nomatch h.symm.trans hc⟩
  · exact ⟨uncorrectable_eq_false (h ▸ nofun), fun _ => hq⟩

variable {s : State} {g : Group} {page p : Nat} {who : Requester} {offsets : List Nat}

/-- The counts of a plain read (R170). -/
theorem plainNotes_counts : (readAc s g page who (plainNotes word offsets)).groups.get g = { s.ac.groups.get g with
      corrected := min ((s.ac.groups.get g).corrected + (offsets.filter (fun i => decide ((word i).outcome = .corrected))).length) 65535
      uncorrectable := min ((s.ac.groups.get g).uncorrectable
        + (offsets.filter (fun i => decide ((word i).outcome = .uncorrectable))).length) 65535 } :=
  (readAc_get s g page who _ g).trans ((if_pos rfl).trans (count_notes _))

/-- The capture of a plain read (R169). -/
theorem plainNotes_capture {before after : List Nat} {i : Nat} (hsplit : offsets = before ++ i :: after) (hnone : s.ac.capture = none)
    (hbefore : ∀ k ∈ before, (word k).outcome = .clean ∨ (word k).outcome = .corrected ∧ (s.ac.spareOf g page).quiet = true) :
    ((word i).outcome = .uncorrectable →
      (readAc s g page who (plainNotes word offsets)).capture = some ⟨g, page, i, (word i).syndrome, .uncorrectable, who⟩) ∧
    ((word i).outcome = .corrected → (s.ac.spareOf g page).quiet = false →
      (readAc s g page who (plainNotes word offsets)).capture = some ⟨g, page, i, (word i).syndrome, .corrected, who⟩) := by
  obtain ⟨hbad, hcorrected⟩ := readAc_capture (who := who) hsplit hnone fun k hk => passedOver (hbefore k hk)
  exact ⟨fun h => hbad (decide_eq_true h), fun h hq => hcorrected (uncorrectable_eq_false (h ▸ nofun)) h hq⟩

/-- A read without an uncorrectable word finds no damage. -/
theorem plainNotes_undamaged (h : ∀ i ∈ offsets, (word i).outcome ≠ .uncorrectable) :
    damagedAfter s p (plainNotes word offsets) = s.ac.damaged ∧ damageReports s p (plainNotes word offsets) = [] :=
  damagedAfter_none (find_bad_none fun i hi => uncorrectable_eq_false (h i hi))

/-- The damage of a read is told by its first uncorrectable word: nothing when the page is listed already, otherwise the page is listed if there
is room, and reported when its tick is held (R171, R172). -/
theorem plainNotes_damaged {before after : List Nat} {i u : Nat} {f : Feed} (hsplit : offsets = before ++ i :: after)
    (hi : (word i).outcome = .uncorrectable) (hbefore : ∀ k ∈ before, (word k).outcome ≠ .uncorrectable)
    (hu : storedTick s.rc.spans p = some u) (hf : f.val = i / 128) :
    ((∃ e ∈ s.ac.damaged, e.1 = p) → damagedAfter s p (plainNotes word offsets) = s.ac.damaged ∧
      damageReports s p (plainNotes word offsets) = []) ∧
    ((∀ e ∈ s.ac.damaged, e.1 ≠ p) →
      damagedAfter s p (plainNotes word offsets) = (if s.ac.damaged.length < 64 then s.ac.damaged ++ [(p, u)] else s.ac.damaged) ∧
      ((∃ e ∈ s.ru.holds, e.2.first ≤ u ∧ u ≤ e.2.last) → damageReports s p (plainNotes word offsets) =
        [⟨.evidenceDamaged, some f, none, none, none, s.fiu.openTick - 1, u, u, none, none, false⟩]) ∧
      ((∀ e ∈ s.ru.holds, ¬ (e.2.first ≤ u ∧ u ≤ e.2.last)) → damageReports s p (plainNotes word offsets) = [])) := by
  have hfind : (plainNotes word offsets).find? (·.bad) = some (noteOf word (uncorrectable word) i) := by
    rw [hsplit]
    exact find_bad_first (fun k hk => uncorrectable_eq_false (hbefore k hk)) (decide_eq_true hi)
  refine ⟨damagedAfter_listed hfind hu, fun hnew => ?_⟩
  obtain ⟨hdamaged, hreports⟩ := damagedAfter_new hfind hu hnew
  refine ⟨hdamaged, fun hheld => ?_, fun hfree => ?_⟩
  · rw [hreports, if_pos ((isHeld_iff _ _).mpr hheld)]
    exact congrArg ([·]) (damageReport_eq hf)
  · rw [hreports, if_neg fun h => ?_]
    obtain ⟨e, he, hin⟩ := (isHeld_iff _ _).mp h
    exact hfree e he hin

end plain

/-! ## The words of a whole page -/

section page

/-- A word of a page with the words before it. -/
theorem pageOffsets_split {i : Nat} (h : i < 1024) : ∃ after, pageOffsets = List.range i ++ i :: after := by
  refine ⟨(List.range (1024 - (i + 1))).map (i + 1 + ·), ?_⟩
  have hsplit : 1024 = (i + 1) + (1024 - (i + 1)) := by omega
  rw [pageOffsets_eq, hsplit, List.range_add, List.range_succ, List.append_assoc]
  simp

/-- Words put in one after the other, each at an address of its own. -/
theorem foldr_put_get {address : Nat → Nat} (hinj : Function.Injective address) (v : Nat → BitVec 73) (ws : List Nat)
    (d : List (Nat × BitVec 73)) (i : Nat) :
    tableGet (ws.foldr (fun w t => tablePut t (address w) (v w)) d) (address i) = if i ∈ ws then some (v i) else tableGet d (address i) := by
  induction ws with
  | nil => rfl
  | cons w ws ih =>
    simp only [List.foldr_cons, tableGet_put, ih, hinj.eq_iff, List.mem_cons]
    by_cases h : i = w
    · rw [if_pos h, if_pos (.inl h), h]
    · simp only [h, false_or, if_false]

variable (ac : Ac) (g : Group) (page : Nat)

theorem wordAddress_injective : Function.Injective (wordAddress g page) := fun i j h => by
  rw [wordAddress_eq, wordAddress_eq] at h
  omega

/-- Of the words read those corrected are written back, with their check bits and spare lane (R174). -/
theorem writeBack_get (word : Nat → WordRead) (offsets : List Nat) (i : Nat) (hi : i ∈ offsets) :
    tableGet (ac.writeBack g page (offsets.map (fun w => (w, word w)))).dram ((g.val * 524288 + page) * 1024 + i) =
      if (word i).outcome = .corrected then some (lanesOf (ac.spareOf g page).lane (word i).data)
      else tableGet ac.dram ((g.val * 524288 + page) * 1024 + i) := by
  have hdram : (ac.writeBack g page (offsets.map (fun w => (w, word w)))).dram =
      (offsets.filter (fun w => decide ((word w).outcome = .corrected))).foldr
        (fun w t => tablePut t (wordAddress g page w) (lanesOf (ac.spareOf g page).lane (word w).data)) ac.dram := by
    rw [Ac.writeBack, List.filter_map, List.foldr_map]
    rfl
  rw [hdram, ← wordAddress_eq, foldr_put_get (wordAddress_injective g page)]
  simp only [List.mem_filter, hi, true_and, decide_eq_true_iff]

theorem writeBack_get_outside (word : Nat → WordRead) {offsets : List Nat} {a : Nat} (hin : ∀ i ∈ offsets, i < 1024)
    (ha : a < (g.val * 524288 + page) * 1024 ∨ (g.val * 524288 + page) * 1024 + 1024 ≤ a) :
    tableGet (ac.writeBack g page (offsets.map (fun w => (w, word w)))).dram a = tableGet ac.dram a := by
  refine writeBack_get_other ac g page _ a fun r hr => ?_
  obtain ⟨w, hw, rfl⟩ := List.mem_map.mp hr
  have hlt := hin w hw
  rw [wordAddress_eq]
  omega

/-- A word that was written reads as its codeword (R166, R168). -/
theorem writeWords_get {n i : Nat} {data : List (BitVec 64)} {w : BitVec 64} (hi : i < n) (hw : data[i]? = some w) :
    tableGet (ac.writeWords g page n data).dram ((g.val * 524288 + page) * 1024 + i) = some (lanesOf (ac.spareOf g page).lane w) := by
  have haddress := wordAddress_eq g page 0
  have hlength : i < ((data.take n).map (lanesOf (ac.spareOf g page).lane)).length := by
    have := (List.getElem?_eq_some_iff.mp hw).1
    rw [List.length_map, List.length_take]
    omega
  have hoffset : (g.val * 524288 + page) * 1024 + i - wordAddress g page 0 = i := by omega
  rw [writeWords_dram, dramWrite_get, if_pos (by omega), hoffset, List.getElem?_map, List.getElem?_take_of_lt hi, hw, Option.map_some]

end page

end Sys2Proof.Proofs.Archive
end

section

namespace Sys2Proof.Proofs.Archive

open Sys2Proof Sys2Proof.Machine

/-!
# The scrubber's choice and the grants of scrub and test (R160, R173, R174)
-/

/-! ## Present and not unavailable (R142, R150) -/

section presence

variable {s t : State}

/-- A page is unavailable exactly when its group has faulted. -/
theorem pageState_faulted_iff {ac : Ac} {p : Nat} :
    ac.pageState p = .faulted ↔ ∃ g, ac.bank[p / 524288]? = some g ∧ (ac.groups.get g).state = .faulted := by
  have hgroup : ac.groupAt p = ac.bank[p / 524288]? := rfl
  unfold Ac.pageState
  rw [hgroup]
  cases ac.bank[p / 524288]? with
  | none => exact iff_of_false nofun (by rintro ⟨g, h, -⟩; cases h)
  | some g => exact ⟨fun h => ⟨g, rfl, h⟩, by rintro ⟨h, hg, hstate⟩; cases hg; exact hstate⟩

theorem presence_available_iff {u p : Nat} : s.presence u = .available p ↔
    pageOf s.rc.spans u = some p ∧ ∀ g, s.ac.bank[p / 524288]? = some g → (s.ac.groups.get g).state ≠ .faulted := by
  have hstate {q : Nat} : (∀ g, s.ac.bank[q / 524288]? = some g → (s.ac.groups.get g).state ≠ .faulted) ↔ s.ac.pageState q ≠ .faulted := by
    rw [Ne, pageState_faulted_iff]
    exact ⟨fun h ⟨g, hg, hf⟩ => h g hg hf, fun h g hg hf => h ⟨g, hg, hf⟩⟩
  unfold State.presence
  cases pageOf s.rc.spans u with
  | none => exact iff_of_false nofun fun h => nomatch h.1
  | some q =>
    rw [Option.some.injEq, hstate]
    simp only
    split
    · next h => exact iff_of_false nofun fun ⟨hq, hp⟩ => hp (hq ▸ h)
    · next h => exact ⟨fun heq => by cases heq; exact ⟨rfl, h⟩, fun ⟨hq, _⟩ => by rw [hq]⟩

/-- The answer depends on the Span List, the bank and the groups. -/
theorem presence_congr (hac : t.ac = s.ac) (hspans : t.rc.spans = s.rc.spans) (u : Nat) : t.presence u = s.presence u := by
  rw [State.presence, State.presence, hac, hspans]

theorem firstAvailable_none {n u : Nat} (h : ∀ v p, u ≤ v → v < u + n → s.presence v ≠ .available p) : s.firstAvailable n u = none := by
  induction n generalizing u with
  | zero => rfl
  | succ n ih =>
    have hrest := ih (u := u + 1) fun v p hv hlt => h v p (by omega) (by omega)
    unfold State.firstAvailable
    split
    · next p hp => exact absurd hp (h u p (Nat.le_refl u) (by omega))
    · exact hrest

/-- The first available tick of a run is found, with its page. -/
theorem firstAvailable_first {n u v p : Nat} (huv : u ≤ v) (hvn : v < u + n) (hv : s.presence v = .available p)
    (h : ∀ w q, u ≤ w → w < v → s.presence w ≠ .available q) : s.firstAvailable n u = some (v, p) := by
  induction n generalizing u with
  | zero => omega
  | succ n ih =>
    unfold State.firstAvailable
    rcases Nat.eq_or_lt_of_le huv with rfl | hlt
    · rw [hv]
    · have hrest := ih (u := u + 1) hlt (by omega) fun w q hw hwv => h w q (by omega) hwv
      split
      · next q hq => exact absurd hq (h u q (Nat.le_refl u) hlt)
      · exact hrest

end presence

/-! ## The order of the holds (R173; log entry 25) -/

section order

variable {s : State}

/-- A hold to consider from a tick on, as the scrubber keeps it. -/
def startOf (y : Nat × Hold × Nat) : ScrubStart := ⟨y.1, y.2.1, y.2.2⟩

theorem map_startOf_fromFirst (es : List (Nat × Hold)) : (es.map (fun e => (e.1, e.2, e.2.first))).map startOf = fromFirst es :=
  List.map_map

theorem scrubOrder_eq {order : List (Nat × Hold × Nat)} {holds : List (Nat × Hold)} {cursor : Option ScrubCursor}
    (hnone : cursor = none → order = holds.map (fun e => (e.1, e.2, e.2.first)))
    (hsame : ∀ c h, cursor = some c → tableGet holds c.index = some h → h.number = c.number →
      order = (c.index, h, c.next) :: ((holds.filter (fun e => decide (c.index < e.1))
        ++ holds.filter (fun e => decide (e.1 < c.index))).map (fun e => (e.1, e.2, e.2.first))))
    (hother : ∀ c, cursor = some c → (∀ h, tableGet holds c.index = some h → h.number ≠ c.number) →
      order = (holds.filter (fun e => decide (c.index < e.1))
        ++ holds.filter (fun e => decide (e.1 ≤ c.index))).map (fun e => (e.1, e.2, e.2.first))) :
    scrubOrder holds cursor = order.map startOf := by
  cases cursor with
  | none => rw [hnone rfl, map_startOf_fromFirst, scrubOrder]
  | some c =>
    cases hget : tableGet holds c.index with
    | none =>
      rw [hother c rfl (by rw [hget]; nofun), map_startOf_fromFirst]
      simp only [scrubOrder, hget]
    | some h =>
      simp only [scrubOrder, hget]
      split
      · next hn =>
        rw [hsame c h rfl hget hn, List.map_cons, map_startOf_fromFirst, List.cons_append]
        exact congrArg (ScrubStart.mk c.index h c.next :: ·) List.map_append.symm
      · next hn =>
        rw [hother c rfl fun h' hh => Option.some.inj (hget.symm.trans hh) ▸ hn, map_startOf_fromFirst]

/-- The tick that a hold offers (R173). -/
theorem scrubOffer_none {y : Nat × Hold × Nat} (h : ∀ u p, y.2.2 ≤ u → u ≤ y.2.1.last → s.presence u ≠ .available p) :
    s.scrubOffer (startOf y) = none := by
  have hnone : s.firstAvailable (y.2.1.last + 1 - y.2.2) y.2.2 = none :=
    firstAvailable_none fun v p hv hlt => h v p hv (by omega)
  exact congrArg (Option.map _) hnone

theorem scrubOffer_first {y : Nat × Hold × Nat} {u p : Nat} (hlow : y.2.2 ≤ u) (hhigh : u ≤ y.2.1.last) (hu : s.presence u = .available p)
    (h : ∀ v q, y.2.2 ≤ v → v < u → s.presence v ≠ .available q) : s.scrubOffer (startOf y) = some (startOf y, u, p) := by
  have hfirst : s.firstAvailable (y.2.1.last + 1 - y.2.2) y.2.2 = some (u, p) := firstAvailable_first hlow (by omega) hu h
  exact congrArg (Option.map _) hfirst

end order

/-! ## The choice at a close (R173) -/

section choice

variable {s t : State}

theorem scrubbing_eq_false_iff {ac : Ac} :
    ac.scrubbing = false ↔ ac.scrubRequest = none ∧ ∀ x r, ac.access = some x → x.kind ≠ .scrub r := by
  unfold Ac.scrubbing
  rw [Bool.or_eq_false_iff, Option.isSome_eq_false_iff, Option.isNone_iff_eq_none]
  refine and_congr_right fun _ => ?_
  cases ac.access with
  | none => exact iff_of_true rfl nofun
  | some x =>
    obtain ⟨kind, g, page, abandoned⟩ := x
    cases kind with
    | scrub r => exact iff_of_false nofun fun h => h _ r rfl rfl
    | _ => exact iff_of_true rfl fun x r hx => by cases hx; nofun

/-- The scrubber sees the holds, the Span List and the groups. -/
theorem firstAvailable_congr (hac : t.ac = s.ac) (hspans : t.rc.spans = s.rc.spans) (n u : Nat) :
    t.firstAvailable n u = s.firstAvailable n u := by
  induction n generalizing u with
  | zero => rfl
  | succ n ih => rw [State.firstAvailable, State.firstAvailable, presence_congr hac hspans, ih]

theorem scrubChoice_congr (hac : t.ac = s.ac) (hru : t.ru = s.ru) (hspans : t.rc.spans = s.rc.spans) :
    t.scrubChoice.ac = s.scrubChoice.ac := by
  have hoffer : t.scrubOffer = s.scrubOffer := funext fun x => by
    rw [State.scrubOffer, State.scrubOffer, firstAvailable_congr hac hspans]
  unfold State.scrubChoice
  rw [hac, hru, hoffer]
  split
  · split
    · exact hac
    · rfl
  · exact hac

/-- The hand-over touches nothing that the scrubber sees. -/
theorem scrubChoice_afterHandOver (hac : t.ac = s.ac) (hru : t.ru = s.ru) (hspans : t.rc.spans = s.rc.spans) (c : Nat) :
    ((t.handOverAt c).withSu (t.handOverAt c).su.timerAtClose).scrubChoice.ac = s.scrubChoice.ac := by
  obtain ⟨su, sg, hhand⟩ := Recording.handOverAt_frame t c
  rw [hhand]
  exact scrubChoice_congr hac hru hspans

/-- What the scrubber chooses at a close is what it would choose before it: no other part of the close touches what it sees. -/
theorem closeTick_ac (xbsy : Bool) (hlapse : s.su.lapseDue = false) (hstall : s.xu.stallDue = false) :
    (closeTick s xbsy).ac = s.scrubChoice.ac := by
  unfold closeTick
  rw [State.lapseFirst_of_none hlapse, State.stallFirst_of_none hstall]
  simp only [Recording.closeRecords_captionsAtClose, Recording.requestWrite_eq, State.withXu_ac]
  refine scrubChoice_afterHandOver (s := s) ?_ ?_ ?_ _ <;> rfl

theorem scrubChoice_idle (h : ¬ (s.ac.state = .recording ∧ s.ac.scrubbing = false)) : s.scrubChoice = s := if_neg h

variable {order : List (Nat × Hold × Nat)} (hrec : s.ac.state = .recording) (hfree : s.ac.scrubbing = false)
  (horder : scrubOrder s.ru.holds s.ac.scrub = order.map startOf)

include hrec hfree horder

theorem scrubChoice_nothing (h : ∀ y ∈ order, ∀ u p, y.2.2 ≤ u → u ≤ y.2.1.last → s.presence u ≠ .available p) :
    s.scrubChoice = s := by
  have hnone : (order.map startOf).findSome? s.scrubOffer = none := by
    rw [List.findSome?_map]
    exact List.findSome?_eq_none_iff.mpr fun y hy => scrubOffer_none (h y hy)
  unfold State.scrubChoice
  rw [if_pos ⟨hrec, hfree⟩, horder, hnone]

/-- The first tick available in the order of the holds is chosen. -/
theorem scrubChoice_first {pre post : List (Nat × Hold × Nat)} {y : Nat × Hold × Nat} {u p : Nat} (hsplit : order = pre ++ y :: post)
    (hpre : ∀ z ∈ pre, ∀ v q, z.2.2 ≤ v → v ≤ z.2.1.last → s.presence v ≠ .available q)
    (hlow : y.2.2 ≤ u) (hhigh : u ≤ y.2.1.last) (hu : s.presence u = .available p)
    (hfirst : ∀ v q, y.2.2 ≤ v → v < u → s.presence v ≠ .available q) : s.scrubChoice = s.withAc { s.ac with
      scrub := some ⟨y.1, y.2.1.number, u + 1⟩, scrubRequest := some ⟨u, p, allFeeds⟩ } := by
  have hnone : (pre.map startOf).findSome? s.scrubOffer = none := by
    rw [List.findSome?_map]
    exact List.findSome?_eq_none_iff.mpr fun z hz => scrubOffer_none (hpre z hz)
  have hfound : (order.map startOf).findSome? s.scrubOffer = some (startOf y, u, p) := by
    rw [hsplit, List.map_append, List.findSome?_append, hnone, Option.none_or, List.map_cons, List.findSome?_cons,
      scrubOffer_first hlow hhigh hu hfirst]
  unfold State.scrubChoice
  rw [if_pos ⟨hrec, hfree⟩, horder, hfound]
  rfl

end choice

/-! ## Grants (R160, R174) -/

section grants

variable {s : State} {r : ReadRequest} {g : Group}

theorem exec_scrubReadGrant (ha : s.ac.access = none) (hw : s.rc.writes = []) (he : s.ac.exportRequest = none)
    (hr : s.ac.scrubRequest = some r) : exec .scrubReadGrant s = .next (grantScrub s r) := by
  change execScrubReadGrant s = _
  simp only [execScrubReadGrant, ha, hw, he, hr]

theorem grantScrub_available (hg : s.ac.bank[r.page / 524288]? = some g) (h : s.presence r.tick = .available r.page) :
    grantScrub s r = { s with ac := { s.ac with
      scrubRequest := none, access := some ⟨.scrub r, g, r.page % 524288, false⟩ } } := by
  have hgroup : s.ac.groupAt r.page = some g := hg
  unfold grantScrub
  rw [if_pos h, hgroup]
  rfl

theorem grantScrub_dropped (h : s.presence r.tick ≠ .available r.page) :
    grantScrub s r = { s with ac := { s.ac with scrubRequest := none } } := if_neg h

theorem exec_testAccessGrant {x : TestPosition} (ha : s.ac.access = none) (hr : s.ac.testRequest = true) (hx : s.ac.test = some x)
    (hg : s.ac.bank[x.slot]? = some g) : exec .testAccessGrant s = .next { s with ac := { s.ac with
      testRequest := false
      access := some ⟨if x.reading then .testRead else .testWrite, g, x.page, false⟩ } } := by
  change execTestAccessGrant s = _
  simp only [execTestAccessGrant, ha, hr, hx, hg]
  rfl

end grants

end Sys2Proof.Proofs.Archive
end

section

namespace Sys2Proof.Proofs.Archive

open Sys2Proof Sys2Proof.Machine Sys2Proof.Proofs.Recording

/-!
# The scrubber and the test, whole (R160, R161, R169 to R174)
-/

/-! ## A scrub read that completes (R174) -/

section scrub

variable {s : State} {r : ReadRequest} {g : Group} {page : Nat} {word : Nat → WordRead} {wrong : WrongLanes}

/-- The state after a scrub read of the given words has ended: corrected words written back, the errors noted, the damage told. -/
def scrubbed (s : State) (r : ReadRequest) (g : Group) (page : Nat) (word : Nat → WordRead) (offsets : List Nat) : State := { s with
  ac := { readAc s g page .scrubRead (plainNotes word offsets) with
    dram := (s.ac.writeBack g page (offsets.map (fun w => (w, word w)))).dram
    damaged := damagedAfter s r.page (plainNotes word offsets) }
  iu := { s.iu with reports := s.iu.reports ++ damageReports s r.page (plainNotes word offsets) } }

theorem exec_scrubReadCompletion (hx : s.ac.access = some ⟨.scrub r, g, page, false⟩) (hword : ∀ i, word i = s.ac.readWord g page i wrong) :
    exec (.scrubReadCompletion wrong) s = .next (scrubbed s r g page word pageOffsets) := by
  have hdone : scrubDone s ⟨.scrub r, g, page, false⟩ r wrong = scrubbed s r g page word pageOffsets := by
    unfold scrubDone
    simp only [Bool.false_eq_true, if_false]
    rw [plainNotes_readWords word hword, readWords_eq word hword, noteRead_eq, noteDamage_eq]
    unfold scrubbed readAc
    generalize plainNotes word pageOffsets = ns
    generalize pageOffsets = offsets
    rfl
  change execScrubReadCompletion wrong s = _
  simp only [execScrubReadCompletion, hx, hdone]

/-- A read whose words are all clean changes no count, captures nothing and writes nothing back. -/
theorem scrubbed_clean (hclean : ∀ i, i < 1024 → (word i).outcome = .clean) (hc : ∀ h, (s.ac.groups.get h).corrected ≤ 65535)
    (hu : ∀ h, (s.ac.groups.get h).uncorrectable ≤ 65535) :
    scrubbed s r g page word pageOffsets = { s with ac := { s.ac with access := none } } := by
  have hclean' : ∀ i ∈ pageOffsets, (word i).outcome = .clean := fun i hi => hclean i (List.mem_range.mp (pageOffsets_eq ▸ hi))
  have hnot {i : Nat} (hi : i ∈ pageOffsets) {o : WordOutcome} (ho : o ≠ .clean) : (word i).outcome ≠ o := hclean' i hi ▸ ho.symm
  obtain ⟨hdamaged, hreports⟩ := plainNotes_undamaged (s := s) (p := r.page) fun i hi => hnot hi nofun
  have hnone (o : WordOutcome) (ho : o ≠ .clean) : (pageOffsets.filter (fun i => decide ((word i).outcome = o))) = [] :=
    List.filter_eq_nil_iff.mpr fun i hi h => hnot hi ho (of_decide_eq_true h)
  have hfirst : firstError (s.ac.spareOf g page).quiet (plainNotes word pageOffsets) = none :=
    firstError_none (unremarkable_notes fun i hi => passedOver (.inl (hclean' i hi)))
  have hback : (s.ac.writeBack g page (pageOffsets.map (fun w => (w, word w)))).dram = s.ac.dram := by
    have hfilter : (pageOffsets.map (fun w => (w, word w))).filter (fun r => decide (r.2.outcome = .corrected)) = [] := by
      rw [List.filter_map]
      exact congrArg (List.map _) (hnone .corrected nofun)
    rw [Ac.writeBack, hfilter]
    rfl
  have hgroups : s.ac.groups.update g (·.count (plainNotes word pageOffsets)) = s.ac.groups := by
    refine Quad.ext_get fun h => ?_
    rw [Quad.get_update]
    split
    · have hcount := count_notes (word := word) (bad := uncorrectable word) (offsets := pageOffsets) (s.ac.groups.get h)
      rw [hnone .corrected nofun] at hcount
      have hbad : pageOffsets.filter (uncorrectable word) = [] := hnone .uncorrectable nofun
      rw [hbad] at hcount
      exact hcount.trans (by simp only [List.length_nil, Nat.add_zero, Nat.min_eq_left (hc h), Nat.min_eq_left (hu h)])
    · rfl
  rw [scrubbed, readAc, hback, hdamaged, hreports, hfirst, hgroups, List.append_nil, Option.map_none, Option.or_none]

end scrub

/-! ## A test write that completes (R160) -/

section testWrite

variable {s : State} {x : TestPosition} {g : Group} {page : Nat} {wrong : WrongLanes}

theorem testPage_getElem? {i : Nat} (h : i < 1024) : (testPage page)[i]? = some (testWord page i) := by
  rw [testPage, pageOffsets_eq, List.getElem?_map, List.getElem?_range h, Option.map_some]

theorem exec_testWriteCompletion (hx : s.ac.access = some ⟨.testWrite, g, page, false⟩) (ht : s.ac.test = some x) :
    exec (.testAccessCompletion wrong) s = .next { s with ac :=
      { wroteWords s.ac g page Config.pageWords (testPage page) with test := some { x with reading := true }, testRequest := true } } := by
  have htest (n : Nat) (data : List (BitVec 64)) : (s.ac.writeWords g page n data).test = some x := ht
  change execTestAccessCompletion wrong s = _
  simp only [execTestAccessCompletion, hx, testWritten, State.withAc_ac, htest, Bool.false_eq_true, if_false]
  generalize Config.pageWords = n
  rfl

end testWrite

/-! ## A test read that completes (R160, R161) -/

section testRead

variable {s : State} {x : TestPosition} {g : Group} {page : Nat} {wrong : WrongLanes} (word : Nat → WordRead)

/-- A word that fails the test: uncorrectable, or different from the pattern (log entry 28). -/
def failsTest (page i : Nat) : Bool := decide ((word i).outcome = .uncorrectable ∨ (word i).data ≠ testWord page i)

theorem failsTest_iff {page i : Nat} :
    failsTest word page i = true ↔ (word i).outcome = .uncorrectable ∨ (word i).data ≠ testWord page i := decide_eq_true_iff

/-- The notes of a test read. -/
def testNotes (page : Nat) : List Note := pageOffsets.map (noteOf word (failsTest word page))

theorem testNotes_readWords (h : ∀ i, word i = s.ac.readWord g page i wrong) :
    (s.ac.readWords g page pageOffsets wrong).map (testNote page) = testNotes word page := by
  rw [readWords_eq word h, List.map_map, testNotes]
  exact List.map_congr_left fun i _ => testNote_eq (failsTest_iff word)

theorem testNotes_any {page : Nat} : (testNotes word page).any (·.bad) = true ↔ ∃ i, i < 1024 ∧ failsTest word page i = true := by
  rw [testNotes, List.any_map, List.any_eq_true]
  simp only [pageOffsets_eq, List.mem_range]
  rfl

/-- The Archive Controller once a test read was compared with the pattern. -/
def comparedAc (s : State) (g : Group) (page : Nat) (ns : List Note) (faulted : Bool) : Ac :=
  if faulted then (readAc s g page .test ns).markFault g else readAc s g page .test ns

theorem exec_testReadCompletion (hx : s.ac.access = some ⟨.testRead, g, page, false⟩) (ht : s.ac.test = some x)
    (hword : ∀ i, word i = s.ac.readWord g page i wrong) : exec (.testAccessCompletion wrong) s =
      .next ((s.withAc (comparedAc s g page (testNotes word page) ((testNotes word page).any (·.bad)))).testAdvance x
        ((testNotes word page).any (·.bad))) := by
  have htest (faulted : Bool) (ns : List Note) : (comparedAc s g page ns faulted).test = some x := by
    cases faulted <;> exact ht
  change execTestAccessCompletion wrong s = _
  simp only [execTestAccessCompletion, hx, testRead, testNotes_readWords word hword, Bool.false_eq_true, if_false]
  generalize testNotes word page = ns at htest ⊢
  have hcompared := htest (ns.any (·.bad)) ns
  unfold comparedAc at hcompared ⊢
  simp only [State.withAc_ac, noteRead_readAc, hcompared]
  rfl

variable (s g page) (ns : List Note) (faulted : Bool)

theorem comparedAc_get (h : Group) : (comparedAc s g page ns faulted).groups.get h = if h = g then
    { (s.ac.groups.get h).count ns with faultMark := (s.ac.groups.get h).faultMark || faulted } else s.ac.groups.get h := by
  cases faulted with
  | false =>
    refine (readAc_get s g page .test ns h).trans ?_
    rw [Bool.or_false]
    rfl
  | true =>
    refine (Quad.get_update _ _ _ _).trans ?_
    rw [readAc_get, Bool.or_true]
    by_cases hh : h = g
    · simp only [if_pos hh]
    · simp only [if_neg hh]

/-- The comparison changes nothing but a mark of what the read left. -/
theorem comparedAc_frame : (comparedAc s g page ns faulted).access = none ∧ (comparedAc s g page ns faulted).dram = s.ac.dram ∧
    (comparedAc s g page ns faulted).state = s.ac.state ∧ (comparedAc s g page ns faulted).bank = s.ac.bank ∧
    (comparedAc s g page ns faulted).capture = (readAc s g page .test ns).capture := by
  cases faulted <;> exact ⟨rfl, rfl, rfl, rfl, rfl⟩

/-- The counts and the mark of the group under test (R160, R170). -/
theorem testNotes_counts : (comparedAc s g page (testNotes word page) faulted).groups.get g = { s.ac.groups.get g with
    corrected := min ((s.ac.groups.get g).corrected
      + (pageOffsets.filter (fun i => decide ((word i).outcome = .corrected))).length) 65535
    uncorrectable := min ((s.ac.groups.get g).uncorrectable + (pageOffsets.filter (failsTest word page)).length) 65535
    faultMark := (s.ac.groups.get g).faultMark || faulted } := by
  rw [comparedAc_get, if_pos rfl, testNotes, count_notes]

/-- The capture of a test read (R169). -/
theorem testNotes_capture {i : Nat} (hi : i < 1024) (hnone : s.ac.capture = none)
    (hbefore : ∀ k, k < i → failsTest word page k = false ∧ ((word k).outcome = .corrected → (s.ac.spareOf g page).quiet = true)) :
    (failsTest word page i = true → (comparedAc s g page (testNotes word page) faulted).capture =
      some ⟨g, page, i, (word i).syndrome, .uncorrectable, .test⟩) ∧
    (failsTest word page i = false → (word i).outcome = .corrected → (s.ac.spareOf g page).quiet = false →
      (comparedAc s g page (testNotes word page) faulted).capture = some ⟨g, page, i, (word i).syndrome, .corrected, .test⟩) := by
  obtain ⟨after, hsplit⟩ := pageOffsets_split hi
  obtain ⟨-, -, -, -, hcapture⟩ := comparedAc_frame s g page (testNotes word page) faulted
  rw [hcapture]
  exact readAc_capture hsplit hnone fun k hk => hbefore k (List.mem_range.mp hk)

end testRead

/-! ## The test goes on (R160, R161) -/

section advance

variable (s : State) (x : TestPosition)

/-- The advance of the test leaves the access, the memory, the marks and the other blocks alone. -/
theorem testAdvance_keeps (faulted : Bool) : (s.testAdvance x faulted).ac.access = s.ac.access ∧
    (s.testAdvance x faulted).ac.dram = s.ac.dram ∧
    (∀ h, ((s.testAdvance x faulted).ac.groups.get h).faultMark = (s.ac.groups.get h).faultMark) ∧
    (s.testAdvance x faulted).rc = s.rc ∧ (s.testAdvance x faulted).xu = s.xu := by
  rcases State.testAdvance_cases s x faulted with ⟨y, h, -⟩ | h <;> rw [h]
  · exact ⟨rfl, rfl, fun _ => rfl, rfl, rfl⟩
  · exact ⟨rfl, rfl, fun g => (testComplete_keeps s g).1, rfl, rfl⟩

theorem testAdvance_nextPage (h : x.page + 1 < 524288) :
    s.testAdvance x false = s.withAc { s.ac with test := some ⟨x.slot, x.page + 1, false⟩, testRequest := true } := if_pos ⟨rfl, h⟩

/-- After the last page of a group the test goes on as after a group that failed. -/
theorem testAdvance_onwards {faulted : Bool} (h : faulted = true ∨ 524288 ≤ x.page + 1) :
    s.testAdvance x faulted = s.testAdvance x true := by
  have hpages : Config.groupPages = 524288 := rfl
  unfold State.testAdvance
  rw [if_neg (by rw [hpages]; rintro ⟨rfl, hlt⟩; rcases h with h | h; cases h; omega), if_neg (c := true = false ∧ _) nofun]

end advance

/-- Settles O55, clause by clause: the grants, a clean scrub read, the test write, the scrubber's choice, a scrub read and a test read. -/
theorem scrubAndTestAccessesRun : Obligations.ScrubAndTestAccessesRun := by
  unfold Obligations.ScrubAndTestAccessesRun
  refine ⟨?scrubGrant, ?cleanScrub, ?testGrant, ?testWrite, ?choice, ?scrubRead, ?testRead⟩
  case scrubGrant =>
    intro s r g ha hw he hr hg
    have hpresence : s.presence r.tick = .available r.page ↔
        pageOf s.rc.spans r.tick = some r.page ∧ (s.ac.groups.get g).state ≠ .faulted :=
      presence_available_iff.trans (and_congr_right fun _ => ⟨fun h => h g hg, fun h k hk => Option.some.inj (hg.symm.trans hk) ▸ h⟩)
    rw [exec_scrubReadGrant ha hw he hr]
    refine ⟨fun hpage hstate => ?_, fun hgone => ?_⟩
    · rw [grantScrub_available hg (hpresence.mpr ⟨hpage, hstate⟩)]
    · rw [grantScrub_dropped fun h => ?_]
      obtain ⟨hpage, hstate⟩ := hpresence.mp h
      exact hgone.elim (fun hne => hne hpage) hstate
  case cleanScrub =>
    intro s wrong r page g hx hclean hc hu
    rw [exec_scrubReadCompletion hx fun _ => rfl, scrubbed_clean hclean hc hu]
  case testGrant => exact fun s x g ha hr hx hg => exec_testAccessGrant ha hr hx hg
  case testWrite =>
    intro s wrong x page g hx ht
    have hexec := exec_testWriteCompletion (wrong := wrong) hx ht
    generalize hn : Config.pageWords = n at hexec
    exact ⟨_, hexec, rfl, fun i hi => writeWords_get s.ac g page (hn ▸ hi) (testPage_getElem? hi),
      fun a ha => writeWords_get_other s.ac g page n a _ (hn ▸ ha)⟩
  case choice =>
    intro xbsy s readable order hfull hlapse hstall hreadable hnone hsame hother
    have hpresence {u p : Nat} (h : ¬ readable u p) : s.presence u ≠ .available p := fun hp =>
      h ((hreadable u p).mpr (presence_available_iff.mp hp))
    have horder := scrubOrder_eq hnone hsame hother
    refine ⟨_, Schedule.exec_tickClose xbsy hfull, ?_⟩
    rw [closeTick_ac xbsy hlapse hstall]
    refine ⟨fun hidle => ?_, fun hrec hrequest haccess => ⟨fun h => ?_, fun pre y post u p hsplit hpre hlow hhigh hu hfirst => ?_⟩⟩
    · rw [scrubChoice_idle]
      rintro ⟨hrec, hfree⟩
      obtain ⟨hrequest, haccess⟩ := scrubbing_eq_false_iff.mp hfree
      rcases hidle with hne | hne | ⟨x, r, hx, hk⟩
      · exact hne hrec
      · exact hne hrequest
      · exact haccess x r hx hk
    · rw [scrubChoice_nothing hrec (scrubbing_eq_false_iff.mpr ⟨hrequest, haccess⟩) horder
        fun y hy u p hlow hhigh => hpresence (h y hy u p hlow hhigh)]
    · rw [scrubChoice_first hrec (scrubbing_eq_false_iff.mpr ⟨hrequest, haccess⟩) horder hsplit
        (fun z hz v q hv hv' => hpresence (hpre z hz v q hv hv')) hlow hhigh (presence_available_iff.mpr ((hreadable u p).mp hu))
        fun v q hv hv' => hpresence (hfirst v q hv hv')]
      rfl
  case scrubRead =>
    intro s wrong r page g word hx hword
    have hexec := exec_scrubReadCompletion hx hword
    have hrange {i : Nat} : i ∈ pageOffsets ↔ i < 1024 := by rw [pageOffsets_eq, List.mem_range]
    have hsplit {i : Nat} (hi : i < 1024) := pageOffsets_split hi
    rw [← pageOffsets_eq]
    generalize pageOffsets = offsets at hexec hrange hsplit ⊢
    refine ⟨_, hexec, rfl, fun i hi => writeBack_get s.ac g page word offsets i (hrange.mpr hi),
      fun a ha => writeBack_get_outside s.ac g page word (fun i hi => hrange.mp hi) ha,
      plainNotes_counts (page := page) (who := .scrubRead), fun h hh => ?_, fun c hc => ?_, fun i hnone hi hbefore => ?_,
      fun hclean => ?_, fun i u f hi hbad hbefore hu hf => ?_, rfl, rfl, rfl, rfl, rfl⟩
    · exact (readAc_get s g page .scrubRead _ h).trans (if_neg hh)
    · exact readAc_capture_kept s g page .scrubRead _ hc
    · obtain ⟨after, hsplit⟩ := hsplit hi
      exact plainNotes_capture hsplit hnone fun k hk => hbefore k (List.mem_range.mp hk)
    · obtain ⟨hdamaged, hreports⟩ := plainNotes_undamaged (s := s) (p := r.page) fun i hi => hclean i (hrange.mp hi)
      exact ⟨hdamaged, by rw [scrubbed, hreports, List.append_nil]⟩
    · obtain ⟨after, hsplit⟩ := hsplit hi
      obtain ⟨hagain, hfirst⟩ := plainNotes_damaged hsplit hbad (fun k hk => hbefore k (List.mem_range.mp hk)) hu hf
      refine ⟨fun hlisted => ?_, fun hnew => ?_⟩
      · obtain ⟨hdamaged, hreports⟩ := hagain hlisted
        exact ⟨hdamaged, by rw [scrubbed, hreports, List.append_nil]⟩
      · obtain ⟨hdamaged, hheld, hfree⟩ := hfirst hnew
        exact ⟨hdamaged, fun h => by rw [scrubbed, hheld h], fun h => by rw [scrubbed, hfree h, List.append_nil]⟩
  case testRead =>
    intro s wrong page g x bad hx ht hbad
    obtain ⟨word, hword⟩ : ∃ word : Nat → WordRead, ∀ i, word i = s.ac.readWord g page i wrong := ⟨_, fun _ => rfl⟩
    simp only [← hword] at hbad ⊢
    have hfails {i : Nat} (hi : i < 1024) : bad i ↔ failsTest word page i = true :=
      (hbad i).trans ((and_iff_right hi).trans (failsTest_iff word).symm)
    have hany : (testNotes word page).any (·.bad) = true ↔ ∃ i, bad i := by
      rw [testNotes_any]
      exact exists_congr fun i => ⟨fun h => (hfails h.1).mpr h.2, fun h => ⟨((hbad i).mp h).1, (hfails ((hbad i).mp h).1).mp h⟩⟩
    have hexec := exec_testReadCompletion word hx ht hword
    have hcounts := testNotes_counts (word := word) s g page ((testNotes word page).any (·.bad))
    have hfirst {i : Nat} := testNotes_capture (word := word) s g page ((testNotes word page).any (·.bad)) (i := i)
    have hothers {h : Group} (hh : h ≠ g) :=
      (comparedAc_get s g page (testNotes word page) ((testNotes word page).any (·.bad)) h).trans (if_neg hh)
    obtain ⟨hfree, hmemory, hstate, hbank, hnoted⟩ :=
      comparedAc_frame s g page (testNotes word page) ((testNotes word page).any (·.bad))
    rw [← pageOffsets_eq]
    generalize (testNotes word page).any (·.bad) = faulted at hany hexec hcounts hfirst hothers hfree hmemory hstate hbank hnoted
    generalize comparedAc s g page (testNotes word page) faulted = ac at hexec hcounts hfirst hothers hfree hmemory hstate hbank hnoted
    generalize testNotes word page = ns at hnoted
    generalize pageOffsets = offsets at hcounts ⊢
    obtain ⟨haccess, hdram, hmark, hrc, hxu⟩ := testAdvance_keeps (s.withAc ac) x faulted
    obtain ⟨hcapture, -, hiu, hcorrected, huncorrectable⟩ := keepsNotes_testAdvance (s.withAc ac) x faulted
    refine ⟨_, hexec, haccess.trans hfree, hdram.trans hmemory, ?_, fun h hh => ?_, ?_, ?_, fun c hc => ?_,
      fun i hnone hi hbefore => ?_, hiu, hrc, hxu, fun hgood hpage => ?_, fun honwards => ?_⟩
    · rw [hmark, State.withAc_ac, hcounts, Bool.or_eq_true, hany]
    · rw [hmark, hcorrected, huncorrectable, State.withAc_ac, hothers hh]
      exact ⟨rfl, rfl, rfl⟩
    · rw [hcorrected, State.withAc_ac, hcounts]
    · rw [huncorrectable, State.withAc_ac, hcounts]
      rfl
    · rw [hcapture, State.withAc_ac, hnoted]
      exact readAc_capture_kept s g page .test ns hc
    · obtain ⟨hbadFirst, hcorrectedFirst⟩ := hfirst hi hnone fun k hk =>
        ⟨Bool.eq_false_iff.mpr fun h => (hbefore k hk).1 ((hfails (by omega)).mpr h), (hbefore k hk).2⟩
      rw [hcapture, State.withAc_ac]
      exact ⟨fun h => hbadFirst ((hfails hi).mp h), fun h => hcorrectedFirst (Bool.eq_false_iff.mpr (mt (hfails hi).mpr h))⟩
    · obtain rfl : faulted = false := Bool.eq_false_iff.mpr fun h => (hany.mp h).elim hgood
      rw [testAdvance_nextPage _ _ hpage]
      exact ⟨rfl, rfl, hstate, rfl, rfl⟩
    · rw [testAdvance_onwards _ _ (honwards.imp_left hany.mpr), ← hbank]
      refine ⟨fun hnext => ?_, fun hlast => ?_⟩
      · rw [testAdvance_nextSlot _ _ hnext]
        exact ⟨rfl, rfl, hstate, rfl, rfl⟩
      · rw [testAdvance_lastSlot _ _ hlast]
        obtain ⟨htested, hmapped⟩ := testComplete_state (s.withAc ac)
        exact ⟨rfl, rfl, rfl, fun h hmem => testComplete_mapped (s.withAc ac) hmem, htested, hmapped, rfl, rfl⟩

end Sys2Proof.Proofs.Archive
end

section

namespace Sys2Proof.Proofs.Archive

open Sys2Proof Sys2Proof.Machine Sys2Proof.Proofs.Recording

/-!
# The port and the queue of jobs (R178, R181 to R184, R187)
-/

/-! ## Port words (R182, R183) -/

section words

/-- The two bytes of a port word, bits 15 to 8 first. -/
def wordBytes (v : BitVec 16) : List Byte := [v.extractLsb' 8 8, v.extractLsb' 0 8]

theorem wordBytes_append (a b : Byte) : wordBytes (a ++ b) = [a, b] := by
  have ha : (a ++ b).extractLsb' 8 8 = a := BitVec.extractLsb'_append_eq_left
  have hb : (a ++ b).extractLsb' 0 8 = b := BitVec.extractLsb'_append_eq_right
  rw [wordBytes, ha, hb]

/-- An even number of bytes is read back from their port words. -/
theorem portWords_bytes {bs : List Byte} (n : Nat) (h : bs.length = 2 * n) : ((portWords bs).map wordBytes).flatten = bs := by
  induction n generalizing bs with
  | zero => rw [List.length_eq_zero_iff.mp h]; rfl
  | succ n ih =>
    match bs, h with
    | a :: b :: rest, h =>
      have hrest : rest.length = 2 * n := by
        simp only [List.length_cons] at h
        omega
      rw [portWords, List.map_cons, List.flatten_cons, ih hrest, wordBytes_append]
      rfl

theorem payload_length (b : Buffered) : ∃ n, b.payload.length = 2 * n := by
  have hwords (ws : List (BitVec 64)) : (ws.map bytesOfWord).flatten.length = 2 * (4 * ws.length) := by
    induction ws with
    | nil => rfl
    | cons w ws ih =>
      rw [List.map_cons, List.flatten_cons, List.length_append, ih, bytesOfWord, beBytes_length, List.length_cons]
      omega
  cases b with
  | absent => exact ⟨0, rfl⟩
  | unavailable => exact ⟨0, rfl⟩
  | chunk o ws =>
    cases o with
    | timeout => exact ⟨0, rfl⟩
    | _ => exact ⟨_, hwords ws⟩

theorem recordBytes_length (j : Job) (f : Feed) (b : Buffered) : (recordBytes j f b).length = 16 + b.payload.length := by
  simp only [recordBytes, List.length_append, beBytes_length]

/-- The bytes of a record are read back from the port (R183). -/
theorem record_bytes (j : Job) (f : Feed) (b : Buffered) :
    ((portWords (recordBytes j f b)).map wordBytes).flatten = recordBytes j f b := by
  obtain ⟨n, hn⟩ := payload_length b
  exact portWords_bytes (8 + n) (by rw [recordBytes_length, hn]; omega)

/-- The first word of a record holds the first two bytes of the job's number. -/
theorem record_head (j : Job) (f : Feed) (b : Buffered) : ∃ k k2 r2 rest,
    beBytes 4 j.number = k :: k2 :: r2 ∧ portWords (recordBytes j f b) = (k ++ k2) :: rest :=
  ⟨_, _, _, _, rfl, rfl⟩

/-- A record without a payload is its header, eight words. -/
theorem record_short (j : Job) (f : Feed) {b : Buffered} (h : b.payload = []) : (portWords (recordBytes j f b)).length = 8 := by
  rw [recordBytes, h]
  rfl

end words

/-! ## The tick buffer on the port (R182, R183) -/

section place

theorem place_buffer (x : Xu) (j : Job) (buffer : List (Feed × Buffered)) : (x.place j buffer).buffer = buffer := by
  cases buffer <;> rfl

theorem place_stallTimer (x : Xu) (j : Job) (buffer : List (Feed × Buffered)) : (x.place j buffer).stallTimer = x.stallTimer := by
  cases buffer <;> rfl

theorem place_jobs (x : Xu) (j : Job) (buffer : List (Feed × Buffered)) :
    ∃ f, (x.place j buffer).jobs = { j with feed := f } :: x.jobs.tail := by
  cases buffer with
  | nil => exact ⟨j.feed, rfl⟩
  | cons e rest => exact ⟨some e.1, rfl⟩

/-- The first word of the record placed waits on XD. -/
theorem place_xd (x : Xu) (j : Job) (f : Feed) (b : Buffered) (rest : List (Feed × Buffered)) :
    (x.place j ((f, b) :: rest)).unsent.head? = some (x.place j ((f, b) :: rest)).xd := by
  obtain ⟨k, k2, -, words, -, h⟩ := record_head j f b
  simp only [Xu.place, h, List.head?_cons, List.headD_cons]

end place

/-! ## Lookup (R181) -/

section lookup

variable {s t : State}

theorem presence_absent_iff {u : Nat} : s.presence u = .absent ↔ pageOf s.rc.spans u = none := by
  unfold State.presence
  cases pageOf s.rc.spans u with
  | none => exact iff_of_true rfl rfl
  | some p =>
    simp only
    split <;> exact iff_of_false nofun nofun

theorem presence_unavailable_iff {u p : Nat} : s.presence u = .unavailable p ↔
    pageOf s.rc.spans u = some p ∧ ∃ g, s.ac.bank[p / 524288]? = some g ∧ (s.ac.groups.get g).state = .faulted := by
  unfold State.presence
  cases pageOf s.rc.spans u with
  | none => exact iff_of_false nofun fun h => nomatch h.1
  | some q =>
    simp only [← pageState_faulted_iff, Option.some.injEq]
    split
    · next h => exact ⟨fun heq => by cases heq; exact ⟨rfl, h⟩, fun ⟨hq, _⟩ => by rw [hq]⟩
    · next h => exact iff_of_false nofun fun ⟨hq, hp⟩ => h (hq ▸ hp)

theorem enterSending_eq (s : State) (j : Job) (buffer : List (Feed × Buffered)) :
    s.enterSending j buffer = { s with xu := s.xu.place { j with phase := .sending } buffer } := rfl

/-- A lookup on an idle port does what `lookedUp` says, whatever phase and feed the job shows before it. -/
theorem lookup_lookedUp {k : Job} {rest : List Job} (phase : Phase) (feed : Option Feed) (hac : t.ac = s.ac)
    (hspans : t.rc.spans = s.rc.spans) (hjobs : t.xu.jobs.tail = rest) (hunsent : t.xu.unsent = []) (hbuffer : t.xu.buffer = []) :
    lookedUp s (t.lookup { k with phase := phase, feed := feed }) k rest := by
  have hsending (g : Feed → Buffered) :
      (t.enterSending { k with phase := phase, feed := feed } (k.mask.map (fun f => (f, g f)))).ac = s.ac ∧
      (t.enterSending { k with phase := phase, feed := feed } (k.mask.map (fun f => (f, g f)))).xu.buffer = k.mask.map (fun f => (f, g f)) ∧
      ∃ h, (t.enterSending { k with phase := phase, feed := feed } (k.mask.map (fun f => (f, g f)))).xu.jobs =
        { k with phase := .sending, feed := h } :: rest := by
    obtain ⟨h, hplaced⟩ := place_jobs t.xu { k with phase := .sending, feed := feed } (k.mask.map (fun f => (f, g f)))
    exact ⟨hac, place_buffer _ _ _, h, by rw [← hjobs]; exact hplaced⟩
  have hpresence : t.presence k.tick = s.presence k.tick := presence_congr hac hspans k.tick
  unfold State.lookup
  simp only
  refine ⟨fun hnone => ?_, fun p hp => ⟨fun hfaulted => ?_, fun hhealthy => ?_⟩⟩
  · rw [hpresence, presence_absent_iff.mpr hnone]
    exact hsending fun _ => .absent
  · rw [hpresence, presence_unavailable_iff.mpr ⟨hp, hfaulted⟩]
    exact hsending fun _ => .unavailable
  · rw [hpresence, presence_available_iff.mpr ⟨hp, hhealthy⟩]
    refine ⟨congrArg (fun ac : Ac => { ac with exportRequest := some ⟨k.tick, p, k.mask⟩ }) hac, hunsent, hbuffer, ?_⟩
    rw [← hjobs]
    rfl

end lookup

/-! ## The ending of the active job (R187) -/

section ending

variable {s : State}

/-- An activation moves the phase of the job at the head, and its place on the port. -/
theorem lookup_numbers (s : State) (j : Job) : (s.lookup j).xu.jobs.map (·.number) = j.number :: s.xu.jobs.tail.map (·.number) := by
  have hplaced (buffer : List (Feed × Buffered)) :
      (s.enterSending j buffer).xu.jobs.map (·.number) = j.number :: s.xu.jobs.tail.map (·.number) := by
    obtain ⟨f, h⟩ := place_jobs s.xu { j with phase := .sending } buffer
    rw [enterSending_eq, h]
    rfl
  unfold State.lookup
  split
  · exact hplaced _
  · exact hplaced _
  · rfl

theorem lookup_stallTimer (s : State) (j : Job) : (s.lookup j).xu.stallTimer = s.xu.stallTimer := by
  unfold State.lookup
  split
  · exact place_stallTimer _ _ _
  · exact place_stallTimer _ _ _
  · rfl

/-- A lookup concerns the Export Unit and the Archive Controller alone. -/
theorem lookup_keeps (s : State) (j : Job) :
    (s.lookup j).iu = s.iu ∧ (s.lookup j).rc = s.rc ∧ (s.lookup j).ru = s.ru ∧ (s.lookup j).li = s.li := by
  obtain ⟨xu, request, h⟩ := s.lookup_frame j
  rw [h]
  exact ⟨rfl, rfl, rfl, rfl⟩

theorem lookup_endings (s : State) (j : Job) : (s.lookup j).xu.endings = s.xu.endings := by
  unfold State.lookup
  split
  · exact place_endings _ _ _
  · exact place_endings _ _ _
  · rfl

theorem activate_nil (h : s.xu.jobs = []) : s.activate = s := by
  simp only [State.activate, h]

theorem activate_cons {j : Job} {rest : List Job} (h : s.xu.jobs = j :: rest) :
    s.activate = s.lookup { j with phase := .lookup, tick := j.first, feed := j.mask.head? } := by
  simp only [State.activate, h]

theorem activate_numbers (s : State) : s.activate.xu.jobs.map (·.number) = s.xu.jobs.map (·.number) := by
  cases h : s.xu.jobs with
  | nil => rw [activate_nil h, h]
  | cons j rest => rw [activate_cons h, lookup_numbers, h]; rfl

theorem activate_stallTimer (s : State) : s.activate.xu.stallTimer = s.xu.stallTimer := by
  cases h : s.xu.jobs with
  | nil => rw [activate_nil h]
  | cons j rest => rw [activate_cons h, lookup_stallTimer]

/-- An owner's own hold is released (R130). -/
theorem releaseOwned_holds {ru : Ru} {i : Nat} {o : Owner} {h : Hold} (hget : tableGet ru.holds i = some h) (ho : h.owner = o) :
    (ru.releaseOwned i o).holds = tableErase ru.holds i := by
  rw [Ru.releaseOwned_eq, if_pos (by rw [hget, ← ho]; rfl)]
  rfl

/-- What the ending of the active job leaves, `behind` being the jobs behind it (R184 to R187). -/
structure Ended (s t : State) (j : Job) (st : EndStatus) (behind : List Job) : Prop where
  stallTimer : t.xu.stallTimer = 0
  iu : t.iu = s.iu
  rc : t.rc = s.rc
  endings : t.xu.endings = s.xu.endings.set j.link (some ⟨j.number, st, j.sent, j.damaged, j.unavailable, j.absent⟩)
  li : t.li = s.li.raiseOn j.link .exports
  pin : ∀ h, tableGet s.ru.holds j.pin = some h → h.owner = .job j.number → t.ru.holds = tableErase s.ru.holds j.pin
  alone : behind = [] → t.xu.jobs = [] ∧ t.xu.unsent = [] ∧ t.xu.buffer = [] ∧ t.xu.xd = s.xu.xd ∧ t.ac = s.ac
  queue : (∀ x ∈ behind, x.number ≠ j.number) → t.xu.jobs.map (·.number) = behind.map (·.number)
  next : ∀ k others, behind = k :: others → (∀ x ∈ behind, x.number ≠ j.number) → lookedUp s t { k with tick := k.first } others

theorem endActive_ended {j : Job} {behind : List Job} (st : EndStatus) (hjobs : s.xu.jobs = j :: behind) :
    Ended s (s.endActive j st) j st behind := by
  obtain ⟨xu, request, hframe⟩ := s.endActive_frame j st
  have hend : s.endActive j st = ((s.endJob j st).withXu (s.endJob j st).xu.idle).activate := rfl
  have hfirst : ((s.endJob j st).withXu (s.endJob j st).xu.idle).xu.jobs = behind.filter (fun x => decide (x.number ≠ j.number)) := by
    have hfilter : (s.endJob j st).xu.jobs = s.xu.jobs.filter (fun x => decide (x.number ≠ j.number)) := rfl
    refine hfilter.trans ?_
    rw [hjobs, List.filter_cons_of_neg (by simp)]
  have hbehind (h : ∀ x ∈ behind, x.number ≠ j.number) :
      ((s.endJob j st).withXu (s.endJob j st).xu.idle).xu.jobs = behind :=
    hfirst.trans (List.filter_eq_self.mpr fun x hx => decide_eq_true (h x hx))
  constructor
  case stallTimer => rw [hend, activate_stallTimer]; rfl
  case iu => rw [hframe]
  case rc => rw [hframe]
  case endings => exact endActive_endings s j st
  case li => rw [hframe]
  case pin =>
    intro h hget ho
    rw [hframe]
    exact releaseOwned_holds hget ho
  case alone =>
    rintro rfl
    rw [hend, activate_nil (hbehind nofun)]
    exact ⟨hbehind nofun, rfl, rfl, rfl, rfl⟩
  case queue =>
    intro h
    rw [hend, activate_numbers, hbehind h]
  case next =>
    rintro k others rfl h
    rw [hend, activate_cons (hbehind h)]
    exact lookup_lookedUp (k := { k with tick := k.first }) .lookup k.mask.head? rfl rfl (congrArg List.tail (hbehind h)) rfl rfl

end ending

end Sys2Proof.Proofs.Archive
end

section

namespace Sys2Proof.Proofs.Archive

open Sys2Proof Sys2Proof.Machine Sys2Proof.Proofs.Recording

/-!
# Export reads, strobes and stalls (R169 to R172, R175, R181 to R187)
-/

/-! ## The grant of a read to the Export Unit (R181) -/

section grant

variable {s : State} {r : ReadRequest} {g : Group}

theorem exec_exportReadGrant (ha : s.ac.access = none) (hw : s.rc.writes = []) (hr : s.ac.exportRequest = some r) :
    exec .exportReadGrant s = .next (grantExport s r) := by
  change execExportReadGrant s = _
  simp only [execExportReadGrant, ha, hw, hr]

theorem grantExport_started (hg : s.ac.bank[r.page / 524288]? = some g) (h : (s.ac.groups.get g).state ≠ .faulted) :
    grantExport s r = { s with ac := { s.ac with
      exportRequest := none, access := some ⟨.exportRead r, g, r.page % 524288, false⟩ } } := by
  have hgroup : s.ac.groupAt r.page = some g := hg
  have hstate : s.ac.pageState r.page ≠ .faulted := fun hf => by
    obtain ⟨k, hk, hfaulted⟩ := pageState_faulted_iff.mp hf
    exact h (Option.some.inj (hg.symm.trans hk) ▸ hfaulted)
  unfold grantExport
  rw [if_neg hstate, hgroup]
  rfl

theorem grantExport_dropped {j : Job} {rest : List Job} (hg : s.ac.bank[r.page / 524288]? = some g)
    (h : (s.ac.groups.get g).state = .faulted) (hjobs : s.xu.jobs = j :: rest) : grantExport s r =
      (s.withAc { s.ac with exportRequest := none }).enterSending j (j.mask.map (fun f => (f, .unavailable))) := by
  unfold grantExport
  rw [if_pos (pageState_faulted_iff.mpr ⟨g, hg, h⟩)]
  simp only [State.withAc_xu, hjobs]

end grant

/-! ## Strobes and stalls (R182 to R186) -/

section strobes

variable {s : State} {j : Job} {rest : List Job}

theorem stallDue_of_lt {x : Xu} (h : x.stallTimer < 50) : x.stallDue = false := by
  have hticks : Config.stallTicks = 50 := rfl
  rw [Xu.stallDue, hticks, decide_eq_false (by omega), Bool.false_and]

theorem stallDue_of_waiting {x : Xu} {w : BitVec 16} {ws : List (BitVec 16)} (hw : x.unsent = w :: ws) (h : x.stallTimer = 50) :
    x.stallDue = true := by
  have hticks : Config.stallTicks = 50 := rfl
  rw [Xu.stallDue, hticks, h, hw]
  rfl

theorem exec_exportStrobe {w : BitVec 16} {ws : List (BitVec 16)} (hw : s.xu.unsent = w :: ws) (h : s.xu.stallTimer < 50) :
    exec .exportStrobe s = .next (strobe s ws) := by
  change execExportStrobe s = _
  simp only [execExportStrobe, hw, stallDue_of_lt h, Bool.false_eq_true, if_false]

/-- No word is taken while a stall is due (R184). -/
theorem exec_exportStrobe_stalled {w : BitVec 16} {ws : List (BitVec 16)} (hw : s.xu.unsent = w :: ws) (h : s.xu.stallTimer = 50) :
    exec .exportStrobe s = .next s := by
  change execExportStrobe s = _
  simp only [execExportStrobe, hw, stallDue_of_waiting hw h, if_true]

theorem stallStatus_eq (j : Job) : stallStatus j = if j.phase = .ending then .aborted else .stalled := by
  unfold stallStatus
  cases j.phase <;> rfl

theorem exec_exportStall {w : BitVec 16} {ws : List (BitVec 16)} (hw : s.xu.unsent = w :: ws) (h : s.xu.stallTimer = 50)
    (hjobs : s.xu.jobs = j :: rest) : exec .exportStall s = .next (s.endActive j (stallStatus j)) := by
  change execExportStall s = _
  simp only [execExportStall, stallDue_of_waiting hw h, if_true, State.stall, hjobs]

/-- The last word of a record completes it. -/
theorem strobe_last {f : Feed} {b : Buffered} {more : List (Feed × Buffered)} (hjobs : s.xu.jobs = j :: rest)
    (hbuffer : s.xu.buffer = (f, b) :: more) :
    strobe s [] = recordDone (s.withXu { s.xu with unsent := [], stallTimer := 0 }) j b more := by
  simp only [strobe, hjobs, hbuffer]

/-- The counts of a job after a record (R182). -/
theorem countRecord_eq (j : Job) (b : Buffered) : j.countRecord b = { j with
    sent := j.sent + 1
    damaged := j.damaged + (match b with | .chunk .damaged _ => 1 | _ => 0)
    unavailable := j.unavailable + (match b with | .unavailable => 1 | .chunk .timeout _ => 1 | _ => 0)
    absent := j.absent + (match b with | .absent => 1 | _ => 0) } := by
  cases b with
  | absent => rfl
  | unavailable => rfl
  | chunk o ws => cases o <;> simp [Job.countRecord, Buffered.flagByte]

variable {b : Buffered} {more : List (Feed × Buffered)}

/-- The state with a record counted and off the port. -/
def counted (s : State) (j : Job) (b : Buffered) (more : List (Feed × Buffered)) : State :=
  s.withXu { s.xu with jobs := j.countRecord b :: s.xu.jobs.tail, buffer := more, unsent := [] }

theorem recordDone_ending (h : j.abort = true ∨ j.phase = .ending) :
    recordDone s j b more = (counted s j b more).endActive (j.countRecord b) .aborted := if_pos h

theorem recordDone_nextRecord {e : Feed × Buffered} {after : List (Feed × Buffered)} (ha : j.abort = false) (hp : j.phase = .sending) :
    recordDone s j b (e :: after) = (counted s j b (e :: after)).withXu
      ((counted s j b (e :: after)).xu.place (j.countRecord b) (e :: after)) :=
  if_neg (by rw [ha, hp]; decide)

theorem recordDone_tickDone (ha : j.abort = false) (hp : j.phase = .sending) : recordDone s j b [] =
    if j.tick = j.last then (counted s j b []).endActive (j.countRecord b) .done
    else (counted s j b []).lookup { j.countRecord b with tick := j.tick + 1, phase := .lookup } :=
  if_neg (by rw [ha, hp]; decide)

/-- A record that is the job's last ends the job: DONE, or ABORTED once it is marked or ENDING (R182, R185, R186). -/
theorem recordDone_ended (hjobs : s.xu.jobs = j :: rest) (hp : j.phase = .sending ∨ j.phase = .ending)
    (h : j.abort = true ∨ j.phase = .ending ∨ more = [] ∧ j.tick = j.last) :
    Ended (counted s j b more) (recordDone s j b more) (j.countRecord b)
      (if j.abort = true ∨ j.phase = .ending then .aborted else .done) rest := by
  have hcounted : (counted s j b more).xu.jobs = j.countRecord b :: rest := congrArg (fun js : List Job => j.countRecord b :: js.tail) hjobs
  by_cases hstop : j.abort = true ∨ j.phase = .ending
  · rw [recordDone_ending hstop, if_pos hstop]
    exact endActive_ended .aborted hcounted
  · obtain ⟨hrunning, hnot⟩ := not_or.mp hstop
    obtain ⟨rfl, htick⟩ := (h.resolve_left hrunning).resolve_left hnot
    rw [recordDone_tickDone (Bool.eq_false_iff.mpr hrunning) (hp.resolve_right hnot), if_pos htick, if_neg hstop]
    exact endActive_ended .done hcounted

/-- However a record's completion goes on, the stall timer stands at 0 and neither incidents nor Span List are touched. -/
theorem recordDone_keeps (hjobs : s.xu.jobs = j :: rest) (hp : j.phase = .sending ∨ j.phase = .ending) (htimer : s.xu.stallTimer = 0) :
    (recordDone s j b more).xu.stallTimer = 0 ∧ (recordDone s j b more).iu = s.iu ∧ (recordDone s j b more).rc = s.rc := by
  by_cases hlast : j.abort = true ∨ j.phase = .ending ∨ more = [] ∧ j.tick = j.last
  · have hended := recordDone_ended (b := b) hjobs hp hlast
    exact ⟨hended.stallTimer, hended.iu, hended.rc⟩
  · obtain ⟨hrunning, hnot⟩ := not_or.mp hlast
    obtain ⟨hphase, hopen⟩ := not_or.mp hnot
    have ha := Bool.eq_false_iff.mpr hrunning
    have hsending := hp.resolve_right hphase
    cases more with
    | cons e after =>
      rw [recordDone_nextRecord ha hsending]
      exact ⟨(place_stallTimer _ _ _).trans htimer, rfl, rfl⟩
    | nil =>
      rw [recordDone_tickDone ha hsending, if_neg fun htick => hopen ⟨rfl, htick⟩]
      obtain ⟨hiu, hrc, -, -⟩ := lookup_keeps (counted s j b []) { j.countRecord b with tick := j.tick + 1, phase := .lookup }
      exact ⟨(lookup_stallTimer _ _).trans htimer, hiu, hrc⟩

/-- The bytes of a record on the port, field by field (R182). -/
theorem recordBytes_eq (j : Job) (f : Feed) (b : Buffered) : recordBytes j f b =
    beBytes 4 j.number ++ (beBytes 6 j.tick ++ (beBytes 1 f.val ++ (beBytes 1 b.flagByte ++ (beBytes 2 b.payload.length
      ++ (beBytes 2 (j.sent % 65536) ++ b.payload))))) := by
  simp only [recordBytes, List.append_assoc]

end strobes

/-! ## The end of a read by the Export Unit (R175) -/

section reads

variable {s : State} {r : ReadRequest} {g : Group} {page : Nat} {word : Nat → WordRead} {wrong : WrongLanes}

/-- The state after the Export Unit's read of the given words has ended, before that unit is told. -/
def exportNoted (s : State) (r : ReadRequest) (g : Group) (page : Nat) (word : Nat → WordRead) (offsets : List Nat) : State := { s with
  ac := { readAc s g page .exportRead (plainNotes word offsets) with damaged := damagedAfter s r.page (plainNotes word offsets) }
  iu := { s.iu with reports := s.iu.reports ++ damageReports s r.page (plainNotes word offsets) } }

theorem exec_exportReadCompletion (hx : s.ac.access = some ⟨.exportRead r, g, page, false⟩)
    (hword : ∀ i, word i = s.ac.readWord g page i wrong) : exec (.exportReadCompletion wrong) s =
      .next ((exportNoted s r g page word (chunkOffsets r.chunks)).deliver r
        ((chunkOffsets r.chunks).map (fun i => (i, word i)))) := by
  have hdone : exportReadDone s ⟨.exportRead r, g, page, false⟩ r wrong =
      (exportNoted s r g page word (chunkOffsets r.chunks)).deliver r ((chunkOffsets r.chunks).map (fun i => (i, word i))) := by
    unfold exportReadDone
    simp only [Bool.false_eq_true, if_false]
    rw [plainNotes_readWords word hword, readWords_eq word hword, noteRead_eq, noteDamage_eq]
    rfl
  change execExportReadCompletion wrong s = _
  simp only [execExportReadCompletion, hx, hdone]

/-- Of what a read noted the Export Unit's taking of it changes nothing. -/
theorem deliver_noted (t : State) (r : ReadRequest) (rs : List (Nat × WordRead)) :
    (t.deliver r rs).ac.damaged = t.ac.damaged ∧ (t.deliver r rs).iu = t.iu := by
  obtain ⟨ru, xu, request, li, h⟩ := deliver_frame t r rs
  rw [h]
  exact ⟨rfl, rfl⟩

/-- All of a read's words were received. -/
theorem chunkOffsets_take (chunks : List Feed) : (chunkOffsets chunks).take (128 * chunks.length) = chunkOffsets chunks :=
  List.take_of_length_le (chunkOffsets_length chunks).le

/-- Each chunk of a read that came to its end is CLEAN, CORRECTED or DAMAGED by its words (R175). -/
theorem bufferedChunk_whole {chunks : List Feed} (word : Nat → WordRead) (hn : chunks.Nodup) {k : Nat} {f : Feed} (hf : chunks[k]? = some f) :
    ∃ o, o ≠ .timeout ∧
      (chunks.map (fun f => (f, bufferedChunk ((chunkOffsets chunks).map (fun i => (i, word i))) f)))[k]? =
        some (f, .chunk o ((List.range 128).map (fun i => (word (128 * f.val + i)).data))) ∧
      (o = .damaged ↔ ∃ i, i < 128 ∧ (word (128 * f.val + i)).outcome = .uncorrectable) ∧
      (o = .clean ↔ ∀ i, i < 128 → (word (128 * f.val + i)).outcome = .clean) := by
  obtain ⟨b, hb, -, hwhole⟩ := bufferedChunk_spec word hn hf (128 * chunks.length)
  have hk := (List.getElem?_eq_some_iff.mp hf).1
  obtain ⟨o, ho, rfl, hdamaged, hclean⟩ := hwhole (by omega)
  rw [chunkOffsets_take] at hb
  exact ⟨o, ho, hb, hdamaged, hclean⟩

end reads

/-- Settles O60, clause by clause: the grant, the end of a read, a strobe, a stall, a dropped grant, the last word of a record, and what a read
notes. -/
theorem exportReadsStrobesAndStalls : Obligations.ExportReadsStrobesAndStalls := by
  unfold Obligations.ExportReadsStrobesAndStalls
  refine ⟨?granted, ?delivered, ?strobed, ?stalled, ?dropped, ?lastWord, ?noted⟩
  case granted =>
    intro s r g ha hw hr hg hstate
    rw [exec_exportReadGrant ha hw hr, grantExport_started hg hstate]
  case delivered =>
    intro s wrong r page g j rest f more hx hjobs ha hchunks
    obtain ⟨word, hword⟩ : ∃ word : Nat → WordRead, ∀ i, word i = s.ac.readWord g page i wrong := ⟨_, fun _ => rfl⟩
    have hexec := exec_exportReadCompletion hx hword
    generalize chunkOffsets r.chunks = offsets at hexec
    rw [deliver_sending r _ (s := exportNoted s r g page word offsets) hjobs ha, hchunks, List.map_cons] at hexec
    obtain ⟨k, k2, r2, words, hnumber, hwords⟩ := record_head j f (bufferedChunk (offsets.map (fun i => (i, word i))) f)
    refine ⟨_, hexec, rfl, ?_, rfl, ?_, place_xd _ _ _ _ _, fun a as has => ?_, rfl, rfl, rfl, rfl, rfl, rfl, rfl, rfl⟩
    · exact congrArg (fun js : List Job => { j with phase := .sending, feed := some f } :: js.tail) hjobs
    · rw [hchunks]
      exact congrArg (f :: ·) (List.map_map.trans (List.map_id more))
    · rw [hnumber] at has
      cases has
      exact ⟨k2, r2, rfl, congrArg (List.headD · s.xu.xd) hwords⟩
  case strobed =>
    intro s w v rest hunsent htimer
    rw [exec_exportStrobe hunsent htimer]
    rfl
  case stalled =>
    intro s w rest j behind hunsent htimer hjobs hphase
    have hended := endActive_ended (stallStatus j) hjobs
    rw [stallStatus_eq j] at hended
    have hexec := exec_exportStall hunsent htimer hjobs
    rw [stallStatus_eq j] at hexec
    exact ⟨_, hexec, hended.stallTimer, hended.iu, hended.rc, hended.endings, hended.li, hended.pin, hended.alone, hended.next,
      exec_exportStrobe_stalled hunsent htimer⟩
  case dropped =>
    intro s r g j rest f more ha hw hr hg hstate hjobs hmask
    have hexec := exec_exportReadGrant ha hw hr
    rw [grantExport_dropped hg hstate hjobs] at hexec
    refine ⟨_, hexec, ?_⟩
    rw [hmask, List.map_cons, enterSending_eq]
    refine ⟨rfl, ?_, rfl, record_short _ _ rfl, place_xd _ _ _ _ _, rfl, rfl, rfl, rfl⟩
    rw [← hmask]
    exact congrArg (fun js : List Job => { j with phase := .sending, feed := some f } :: js.tail) hjobs
  case lastWord =>
    intro s w j k rest f b more hunsent htimer hjobs hbuffer hphase hk
    obtain rfl : k = j.countRecord b := hk.trans (countRecord_eq j b).symm
    have hexec := exec_exportStrobe hunsent htimer
    rw [strobe_last hjobs hbuffer] at hexec
    have hjobs' : (s.withXu { s.xu with unsent := [], stallTimer := 0 }).xu.jobs = j :: rest := hjobs
    obtain ⟨hstallTimer, hiu, hrc⟩ := recordDone_keeps (b := b) (more := more) hjobs' hphase rfl
    refine ⟨_, hexec, hstallTimer, hiu, hrc, fun h c after hsending ha hmore => ?_, fun hsending ha hmore htick => ?_, fun hlast => ?_⟩
    · rw [hmore, recordDone_nextRecord ha hsending]
      refine ⟨congrArg (fun js : List Job => ({ j.countRecord b with feed := some h } : Job) :: js.tail) hjobs, rfl,
        place_xd _ _ _ _ _, rfl, rfl, rfl, rfl, c.payload, beBytes 1 c.flagByte, ?_, ?_⟩
      · cases c with
        | absent => rfl
        | unavailable => rfl
        | chunk o ws =>
          cases o <;> simp only [Buffered.flagByte] <;> rfl
      · exact (record_bytes (j.countRecord b) h c).trans (recordBytes_eq _ _ _)
    · rw [hmore, recordDone_tickDone ha hsending, if_neg htick]
      obtain ⟨-, -, hru, hli⟩ := lookup_keeps (counted (s.withXu { s.xu with unsent := [], stallTimer := 0 }) j b [])
        { j.countRecord b with tick := j.tick + 1, phase := .lookup }
      exact ⟨hru, hli, lookup_endings _ _, lookup_lookedUp (k := { j.countRecord b with tick := j.tick + 1 }) .lookup j.feed rfl rfl
        (congrArg List.tail hjobs) rfl rfl⟩
    · have hended := recordDone_ended (b := b) hjobs' hphase hlast
      refine ⟨hended.endings, hended.li, hended.pin, hended.queue, hended.next, fun hrest => ?_⟩
      obtain ⟨hnone, hwords, hempty, -, hac⟩ := hended.alone hrest
      exact ⟨hnone, hwords, hempty, hac⟩
  case noted =>
    intro s wrong r page g j rest word offsets hx hjobs hnodup hword hoffsets
    have hexec := exec_exportReadCompletion hx hword
    have hchunks : chunkOffsets r.chunks = offsets := hoffsets.symm
    have hbuffered {k : Nat} {f : Feed} (hf : r.chunks[k]? = some f) := bufferedChunk_whole word hnodup hf
    simp only [hchunks] at hexec hbuffered
    clear hoffsets hchunks
    have hjobs' : (exportNoted s r g page word offsets).xu.jobs = j :: rest := hjobs
    obtain ⟨haccess, hgroups, hdram, hcapture⟩ := deliver_archive (exportNoted s r g page word offsets) r (offsets.map (fun i => (i, word i)))
    obtain ⟨hdamaged, hiu⟩ := deliver_noted (exportNoted s r g page word offsets) r (offsets.map (fun i => (i, word i)))
    refine ⟨_, hexec, haccess, hdram, ?_, fun h hh => ?_, fun c hc => ?_, fun before i after hnone hsplit hbefore => ?_, fun hgood => ?_,
      fun before i after u f hsplit hbad hbefore hu hf => ?_, fun ha k f hf => ?_, fun ha => ?_⟩
    · rw [hgroups]
      exact plainNotes_counts (page := page) (who := .exportRead)
    · rw [hgroups]
      exact (readAc_get s g page .exportRead _ h).trans (if_neg hh)
    · rw [hcapture]
      exact readAc_capture_kept s g page .exportRead _ hc
    · rw [hcapture]
      exact plainNotes_capture hsplit hnone hbefore
    · obtain ⟨hlist, hreports⟩ := plainNotes_undamaged (s := s) (p := r.page) hgood
      exact ⟨hdamaged.trans hlist, hiu.trans (by rw [exportNoted, hreports, List.append_nil])⟩
    · obtain ⟨hagain, hfirst⟩ := plainNotes_damaged hsplit hbad hbefore hu hf
      rw [hdamaged, hiu]
      refine ⟨fun hlisted => ?_, fun hnew => ?_⟩
      · obtain ⟨hlist, hreports⟩ := hagain hlisted
        exact ⟨hlist, by rw [exportNoted, hreports, List.append_nil]⟩
      · obtain ⟨hlist, hheld, hfree⟩ := hfirst hnew
        exact ⟨hlist, fun h => by rw [exportNoted, hheld h], fun h => by rw [exportNoted, hfree h, List.append_nil]⟩
    · have hne : r.chunks ≠ [] := fun h => by
        rw [h] at hf
        cases hf
      rw [deliver_sending r _ hjobs' ha, (enterSending_map hjobs' hne _).2]
      exact hbuffered hf
    · have hended := endActive_ended .aborted hjobs'
      rw [deliver_aborted r _ hjobs' ha]
      exact ⟨hended.endings, hended.li⟩

end Sys2Proof.Proofs.Archive
end

section

namespace Sys2Proof.Proofs.Exports

open Sys2Proof Sys2Proof.Machine Sys2Proof.Proofs.Recording Sys2Proof.Proofs.Archive

/-!
# EXPORT_START (R178 to R181)
-/

/-! ## The checks before the queue is asked (R179, steps 1 to 3) -/

/-- A range all of whose ticks are ABSENT meets no span (R180). -/
theorem firstPresent_none {spans : List Span} {a b : Nat} (hlength : ∀ x ∈ spans, 0 < x.length)
    (habsent : ∀ u, a ≤ u → u ≤ b → pageOf spans u = none) : firstPresent spans a b = none := by
  refine List.findSome?_eq_none_iff.mpr fun x hx => if_neg fun hmeets => ?_
  have hlast : x.lastTick = x.firstTick + x.length - 1 := rfl
  have hpos := hlength x hx
  have hnone : pageOf spans (max a x.firstTick) = none := habsent _ (by omega) (by omega)
  exact List.find?_eq_none.mp (Option.map_eq_none_iff.mp hnone) x hx ((Span.hasTick_iff x _).mpr (by omega))

theorem arguments_stand {a : ExportStartArgs} (hmask : a.mask ≠ 0) (hrange : a.first.toNat ≤ a.last.toNat) :
    ¬ (maskFeeds a.mask = [] ∨ a.last.toNat < a.first.toNat) :=
  not_or.mpr ⟨mt Loudness.maskFeeds_eq_nil.mp hmask, Nat.not_lt.mpr hrange⟩

section checks

variable {l : Link} {a : ExportStartArgs} {s : State} (li : Li) (hdue : s.xu.stallDue = false)
include hdue

theorem exportStartTaken_badArgument (h : a.mask = 0 ∨ a.last.toNat < a.first.toNat) :
    exportStartTaken l a (s.withLi li) = (s.withLi li, ⟨.badArgument, []⟩) := by
  rw [exportStartTaken, State.stallFirst_withLi li hdue]
  exact if_pos (h.imp_left Loudness.maskFeeds_eq_nil.mpr)

variable (hmask : a.mask ≠ 0) (hrange : a.first.toNat ≤ a.last.toNat)
include hmask hrange

theorem exportStartTaken_wrongState (h : s.ac.state ≠ .recording) :
    exportStartTaken l a (s.withLi li) = (s.withLi li, ⟨.wrongState, []⟩) := by
  rw [exportStartTaken, State.stallFirst_withLi li hdue]
  exact (if_neg (arguments_stand hmask hrange)).trans (if_pos h)

variable (hrec : s.ac.state = .recording)
include hrec

theorem exportStartTaken_notFound (h : firstPresent s.rc.spans a.first.toNat a.last.toNat = none) :
    exportStartTaken l a (s.withLi li) = (s.withLi li, ⟨.notFound, []⟩) := by
  rw [exportStartTaken, State.stallFirst_withLi li hdue]
  refine (if_neg (arguments_stand hmask hrange)).trans ((if_neg (not_not.mpr hrec)).trans ?_)
  simp only [State.withLi_rc, h, refuse]

theorem exportStartTaken_present {u v : Nat} (hu : firstPresent s.rc.spans a.first.toNat a.last.toNat = some u)
    (hv : lastPresent s.rc.spans a.first.toNat a.last.toNat = some v) : exportStartTaken l a (s.withLi li) =
      pinAndQueue (s.withLi li) l (maskFeeds a.mask) u v (decide (u ≠ a.first.toNat) || decide (v ≠ a.last.toNat)) := by
  rw [exportStartTaken, State.stallFirst_withLi li hdue]
  refine (if_neg (arguments_stand hmask hrange)).trans ((if_neg (not_not.mpr hrec)).trans ?_)
  simp only [State.withLi_rc, hu, hv]

end checks

/-! ## The pin (R125, R179) -/

/-- Ticks `u` to `v` can be pinned: the archive is RECORDING, and they lie between the retention floor and the newest closed tick. -/
structure Pinnable (s : State) (u v : Nat) : Prop where
  recording : s.ac.state = .recording
  floor : s.retentionFloor ≤ u
  ordered : u ≤ v
  closed : v < s.fiu.openTick

section pin

variable {s : State} {u v : Nat} (o : Owner) (h : Pinnable s u v)
include h

theorem Pinnable.withLi (li : Li) : Pinnable (s.withLi li) u v := ⟨h.recording, h.floor, h.ordered, h.closed⟩

/-- Of the checks of R125 the quota and the Hold Table remain. -/
theorem judgePin_eq : judgePlacement s o u v 0 =
    if s.ru.quota < committedSum s.ru.holds + (v - u + 1) then .refused .quota
    else (tableFree s.ru.holds 64).elim (.refused .full) (fun i => .placed i ⟨s.ru.counter, o, u, v, 0⟩ false) := by
  obtain ⟨hrec, hfloor, hordered, hclosed⟩ := h
  rw [Retention.judgePlacement_eq, if_neg (by omega), if_neg (not_not.mpr hrec), if_neg (by omega), if_neg (by omega),
    max_eq_left hfloor, decide_eq_false (by omega)]
  cases tableFree s.ru.holds 64 <;> rfl

theorem judgePin_quota (hquota : s.ru.quota < committedSum s.ru.holds + (v - u + 1)) :
    judgePlacement s o u v 0 = .refused .quota :=
  (judgePin_eq o h).trans (if_pos hquota)

variable (hquota : committedSum s.ru.holds + (v - u + 1) ≤ s.ru.quota)
include hquota

theorem judgePin_full (hfull : ∀ j, j < 64 → tableGet s.ru.holds j ≠ none) : judgePlacement s o u v 0 = .refused .full := by
  rw [judgePin_eq o h, if_neg (Nat.not_lt.mpr hquota), tableFree_eq_none.mpr fun j hj => Option.isSome_iff_ne_none.mpr (hfull j hj)]
  rfl

theorem judgePin_placed {i : Nat} (hi : i < 64) (hget : tableGet s.ru.holds i = none) (hlow : ∀ j, j < i → tableGet s.ru.holds j ≠ none) :
    judgePlacement s o u v 0 = .placed i ⟨s.ru.counter, o, u, v, 0⟩ false := by
  rw [judgePin_eq o h, if_neg (Nat.not_lt.mpr hquota), tableFree_eq_some.mpr ⟨hi, hget, hlow⟩]
  rfl

end pin

/-! ## The queue (R179, steps 4 to 6) -/

/-- The Retention Unit with the pin of the next job at entry `i`. -/
def pinnedRu (s : State) (u v i : Nat) : Ru :=
  { s.ru with holds := tablePut s.ru.holds i ⟨s.ru.counter, .job s.xu.counter, u, v, 0⟩, counter := s.ru.counter + 1 }

section queue

variable {s : State} {u v : Nat} (l : Link) (mask : List Feed) (clamped : Bool)

theorem pinAndQueue_queueFull (h : 4 ≤ s.xu.jobs.length) : pinAndQueue s l mask u v clamped = (s, ⟨.full, [.byte 0]⟩) := if_pos h

variable (hroom : s.xu.jobs.length < 4)
include hroom

theorem pinAndQueue_quota (h : judgePlacement s (.job s.xu.counter) u v 0 = .refused .quota) :
    pinAndQueue s l mask u v clamped = (s, ⟨.quota, []⟩) := by
  refine (if_neg (Nat.not_le.mpr hroom)).trans ?_
  rw [h]
  rfl

theorem pinAndQueue_holdsFull (h : judgePlacement s (.job s.xu.counter) u v 0 = .refused .full) :
    pinAndQueue s l mask u v clamped = (s, ⟨.full, [.byte 1]⟩) := by
  refine (if_neg (Nat.not_le.mpr hroom)).trans ?_
  rw [h]

theorem pinAndQueue_placed {i : Nat}
    (h : judgePlacement s (.job s.xu.counter) u v 0 = .placed i ⟨s.ru.counter, .job s.xu.counter, u, v, 0⟩ false) :
    pinAndQueue s l mask u v clamped = ((s.withRu (pinnedRu s u v i)).queueJob (newJob s.xu.counter l mask u v i),
      startReply (newJob s.xu.counter l mask u v i) s.xu.jobs.length clamped) := by
  refine (if_neg (Nat.not_le.mpr hroom)).trans ?_
  rw [h]
  rfl

end queue

section queued

variable {s : State} (j : Job)

theorem queueJob_behind (h : s.xu.jobs ≠ []) :
    s.queueJob j = s.withXu { s.xu with jobs := s.xu.jobs ++ [j], counter := s.xu.counter + 1 } := by
  cases hjobs : s.xu.jobs with
  | nil => exact absurd hjobs h
  | cons head tail => simp only [State.queueJob, hjobs]

/-- The state with the first job in its queue, before the job is looked up. -/
def firstQueued (s : State) (j : Job) : State :=
  s.withXu { s.xu with jobs := [j], counter := s.xu.counter + 1, stallTimer := 0 }

theorem queueJob_first (h : s.xu.jobs = []) : s.queueJob j =
    (firstQueued s j).lookup { j with phase := .lookup, tick := j.first, feed := j.mask.head? } := by
  simp only [State.queueJob, h]
  rfl

theorem lookup_withLi (li : Li) : (s.withLi li).lookup j = (s.lookup j).withLi li := by
  have hpresence : (s.withLi li).presence j.tick = s.presence j.tick := rfl
  unfold State.lookup
  rw [hpresence]
  cases s.presence j.tick <;> rfl

theorem lookup_counter : (s.lookup j).xu.counter = s.xu.counter := by
  have hplaced (buffer : List (Feed × Buffered)) : (s.enterSending j buffer).xu.counter = s.xu.counter := by
    cases buffer <;> rfl
  unfold State.lookup
  split
  · exact hplaced _
  · exact hplaced _
  · rfl

/-- The look-up at a present tick of a job with none behind it (R181): the job READING with its read requested, or SENDING where the page's group
has FAULTED. -/
theorem lookup_present {p : Nat} {old : Job} (hmask : j.mask ≠ []) (hjobs : s.xu.jobs = [old]) (hp : pageOf s.rc.spans j.tick = some p) :
    ∃ phase, (s.lookup j).xu.jobs = [{ j with phase := phase, feed := j.mask.head? }] ∧
      ((∀ g, s.ac.bank[p / 524288]? = some g → (s.ac.groups.get g).state ≠ .faulted) → phase = .reading ∧
        (s.lookup j).ac = { s.ac with exportRequest := some ⟨j.tick, p, j.mask⟩ }) ∧
      ((∃ g, s.ac.bank[p / 524288]? = some g ∧ (s.ac.groups.get g).state = .faulted) → phase = .sending ∧
        (s.lookup j).ac = s.ac ∧ (s.lookup j).xu.buffer = j.mask.map (fun f => (f, .unavailable))) := by
  by_cases hfaulted : ∃ g, s.ac.bank[p / 524288]? = some g ∧ (s.ac.groups.get g).state = .faulted
  · have hlookup : s.lookup j = s.enterSending j (j.mask.map (fun f => (f, .unavailable))) := by
      simp only [State.lookup, presence_unavailable_iff.mpr ⟨hp, hfaulted⟩]
    have hsent : (s.enterSending j (j.mask.map (fun f => (f, .unavailable)))).xu.jobs =
        { j with phase := .sending, feed := j.mask.head? } :: s.xu.jobs.tail := by
      obtain ⟨f, fs, hm⟩ := List.exists_cons_of_ne_nil hmask
      have hbuffer : j.mask.map (fun f => (f, Buffered.unavailable)) = (f, .unavailable) :: fs.map (fun f => (f, .unavailable)) := by
        rw [hm, List.map_cons]
      have hhead : j.mask.head? = some f := by rw [hm, List.head?_cons]
      rw [hbuffer, hhead]
      rfl
    obtain ⟨g, hg, hstate⟩ := hfaulted
    rw [hlookup, hsent, hjobs]
    exact ⟨.sending, rfl, fun h => absurd hstate (h g hg), fun _ => ⟨rfl, rfl, place_buffer _ _ _⟩⟩
  · have hgood : ∀ g, s.ac.bank[p / 524288]? = some g → (s.ac.groups.get g).state ≠ .faulted := fun g hg h => hfaulted ⟨g, hg, h⟩
    have hlookup : s.lookup j = (s.withXu { s.xu with jobs := { j with phase := .reading, feed := j.mask.head? } :: s.xu.jobs.tail }).withAc
        { s.ac with exportRequest := some ⟨j.tick, p, j.mask⟩ } := by
      simp only [State.lookup, presence_available_iff.mpr ⟨hp, hgood⟩]
    rw [hlookup, hjobs]
    exact ⟨.reading, rfl, fun _ => ⟨rfl, rfl⟩, fun h => absurd h hfaulted⟩

end queued

/-! ## The command -/

/-- The job an EXPORT_START makes (R178, R179). -/
def acceptedJob (l : Link) (a : ExportStartArgs) (s : State) (u v i : Nat) : Job := newJob s.xu.counter l (maskFeeds a.mask) u v i

section start

/-- The reply to an accepted job: OK exactly when the range asked for was not clamped (R179, R180). -/
def acceptedReply (a : ExportStartArgs) (n u v i place : Nat) : Reply :=
  ⟨if u = a.first.toNat ∧ v = a.last.toNat then .ok else .clamped,
    [.long n, .tick u, .tick v, .byte i, .byte place, .long ((v - u + 1) * (maskFeeds a.mask).length)]⟩

theorem startReply_newJob (l : Link) (a : ExportStartArgs) (n u v i place : Nat) :
    startReply (newJob n l (maskFeeds a.mask) u v i) place (decide (u ≠ a.first.toNat) || decide (v ≠ a.last.toNat)) =
      acceptedReply a n u v i place := by
  have hclamped : (decide (u ≠ a.first.toNat) || decide (v ≠ a.last.toNat)) = !decide (u = a.first.toNat ∧ v = a.last.toNat) := by
    rw [Bool.decide_and, Bool.not_and, decide_not, decide_not]
  rw [hclamped, startReply, acceptedReply]
  by_cases hkept : u = a.first.toNat ∧ v = a.last.toNat
  · rw [if_pos hkept, decide_eq_true hkept, Bool.not_true, if_neg Bool.false_ne_true]
    rfl
  · rw [if_neg hkept, decide_eq_false hkept, Bool.not_false, if_pos rfl]
    rfl

variable {l : Link} {a : ExportStartArgs} {s : State}

theorem exec_exportStart {s' : State} {r : Reply} (h : s.mayAsk l 39)
    (hbody : ∀ li, exportStartTaken l a (s.withLi li) = (s'.withLi li, r)) :
    exec (.exportStart l (.fits a)) s = .next { s' with li := s.li.passed l 39 r } :=
  congrArg Host.Outcome.next (Schedule.passRequest_of_body h hbody)

/-- An EXPORT_START whose arguments stand, and whose range is present from `u` to `v` and can be pinned. -/
structure Startable (l : Link) (a : ExportStartArgs) (s : State) (u v : Nat) : Prop where
  ask : s.mayAsk l 39
  due : s.xu.stallDue = false
  mask : a.mask ≠ 0
  range : a.first.toNat ≤ a.last.toNat
  first : firstPresent s.rc.spans a.first.toNat a.last.toNat = some u
  last : lastPresent s.rc.spans a.first.toNat a.last.toNat = some v
  pin : Pinnable s u v

variable {u v : Nat} (h : Startable l a s u v)
include h

theorem Startable.taken (li : Li) : exportStartTaken l a (s.withLi li) =
    pinAndQueue (s.withLi li) l (maskFeeds a.mask) u v (decide (u ≠ a.first.toNat) || decide (v ≠ a.last.toNat)) :=
  exportStartTaken_present li h.due h.mask h.range h.pin.recording h.first h.last

theorem exec_exportStart_queueFull (hfull : 4 ≤ s.xu.jobs.length) :
    exec (.exportStart l (.fits a)) s = .next { s with li := s.li.passed l 39 ⟨.full, [.byte 0]⟩ } :=
  exec_exportStart h.ask fun li => (h.taken li).trans (pinAndQueue_queueFull l _ _ hfull)

variable (hroom : s.xu.jobs.length < 4)
include hroom

theorem exec_exportStart_quota (hquota : s.ru.quota < committedSum s.ru.holds + (v - u + 1)) :
    exec (.exportStart l (.fits a)) s = .next { s with li := s.li.passed l 39 ⟨.quota, []⟩ } :=
  exec_exportStart h.ask fun li => (h.taken li).trans (pinAndQueue_quota l _ _ hroom (judgePin_quota _ (h.pin.withLi li) hquota))

variable (hquota : committedSum s.ru.holds + (v - u + 1) ≤ s.ru.quota)
include hquota

theorem exec_exportStart_holdsFull (hfull : ∀ j, j < 64 → tableGet s.ru.holds j ≠ none) :
    exec (.exportStart l (.fits a)) s = .next { s with li := s.li.passed l 39 ⟨.full, [.byte 1]⟩ } :=
  exec_exportStart h.ask fun li => (h.taken li).trans (pinAndQueue_holdsFull l _ _ hroom (judgePin_full _ (h.pin.withLi li) hquota hfull))

variable {i : Nat} (hi : i < 64) (hget : tableGet s.ru.holds i = none) (hlow : ∀ j, j < i → tableGet s.ru.holds j ≠ none)
include hi hget hlow

/-- The job is pinned and queued, and the reply tells where (R179). -/
theorem Startable.accepted (li : Li) : exportStartTaken l a (s.withLi li) =
    (((s.withRu (pinnedRu s u v i)).withLi li).queueJob (acceptedJob l a s u v i),
      acceptedReply a s.xu.counter u v i s.xu.jobs.length) := by
  have hpin := judgePin_placed (.job s.xu.counter) (h.pin.withLi li) hquota hi hget hlow
  rw [h.taken li, pinAndQueue_placed (s := s.withLi li) l _ _ hroom hpin]
  exact congrArg (Prod.mk _) (startReply_newJob l a _ u v i _)

theorem exec_exportStart_behind (hbusy : s.xu.jobs ≠ []) : exec (.exportStart l (.fits a)) s = .next { s with
    ru := pinnedRu s u v i
    xu := { s.xu with jobs := s.xu.jobs ++ [acceptedJob l a s u v i], counter := s.xu.counter + 1 }
    li := s.li.passed l 39 (acceptedReply a s.xu.counter u v i s.xu.jobs.length) } := by
  refine exec_exportStart (s' := { s with
    ru := pinnedRu s u v i
    xu := { s.xu with jobs := s.xu.jobs ++ [acceptedJob l a s u v i], counter := s.xu.counter + 1 } })
    h.ask fun li => (h.accepted hroom hquota hi hget hlow li).trans ?_
  rw [queueJob_behind (s := (s.withRu (pinnedRu s u v i)).withLi li) _ hbusy]
  rfl

/-- A job accepted into an empty queue is looked up at once (R178, R179). -/
theorem exec_exportStart_first (hidle : s.xu.jobs = []) : exec (.exportStart l (.fits a)) s = .next {
    (firstQueued (s.withRu (pinnedRu s u v i)) (acceptedJob l a s u v i)).lookup
      { acceptedJob l a s u v i with phase := .lookup } with
    li := s.li.passed l 39 (acceptedReply a s.xu.counter u v i 0) } := by
  refine exec_exportStart h.ask fun li => (h.accepted hroom hquota hi hget hlow li).trans ?_
  rw [queueJob_first (s := (s.withRu (pinnedRu s u v i)).withLi li) _ hidle, ← lookup_withLi, hidle]
  rfl

end start

end Sys2Proof.Proofs.Exports
end

section

namespace Sys2Proof.Proofs.Exports

open Sys2Proof Sys2Proof.Machine Sys2Proof.Proofs.Recording Sys2Proof.Proofs.Archive

/-!
# EXPORT_ABORT (R185, R187)
-/

/-! ## The queue without a job (R187) -/

theorem filter_number {before after : List Job} {k : Job} (hother : ∀ j ∈ before ++ after, j.number ≠ k.number) :
    (before ++ k :: after).filter (fun x => decide (x.number ≠ k.number)) = before ++ after := by
  have hkeep (js : List Job) (h : ∀ j ∈ js, j ∈ before ++ after) : js.filter (fun x => decide (x.number ≠ k.number)) = js :=
    List.filter_eq_self.mpr fun j hj => decide_eq_true (hother j (h j hj))
  rw [List.filter_append, List.filter_cons_of_neg (by simp), hkeep before fun _ => List.mem_append_left after,
    hkeep after fun _ => List.mem_append_right before]

/-- No job with the number of the one that ended is left. -/
theorem endActive_gone (s : State) (j : Job) (st : EndStatus) : ∀ k ∈ (s.endActive j st).xu.jobs, k.number ≠ j.number := by
  have hend : s.endActive j st = ((s.endJob j st).withXu (s.endJob j st).xu.idle).activate := rfl
  have hnumbers : (s.endActive j st).xu.jobs.map (·.number) =
      (s.xu.jobs.filter (fun x => decide (x.number ≠ j.number))).map (·.number) := by
    rw [hend, activate_numbers]
    rfl
  intro k hk
  have hmem := List.mem_map_of_mem (f := (·.number)) hk
  rw [hnumbers] at hmem
  obtain ⟨x, hx, hxk⟩ := List.mem_map.mp hmem
  exact hxk ▸ of_decide_eq_true (List.mem_filter.mp hx).2

/-! ## The abort of the active job (R185) -/

section active

variable {s : State} {j : Job}

theorem abortActive_ending (h : j.abort = true ∨ j.phase = .ending) : abortActive s j = s := by
  unfold abortActive
  split
  · rfl
  · next hfresh => rw [h.resolve_left hfresh]

theorem abortActive_sending (ha : j.abort = false) (hp : j.phase = .sending) : abortActive s j = s.markAbort j := by
  simp only [abortActive, ha, hp, Bool.false_eq_true, if_false]

/-- A read that is on the bus ends first. -/
theorem abortActive_granted (ha : j.abort = false) (hp : j.phase = .reading) (hr : s.ac.exportRequest = none) :
    abortActive s j = s.markAbort j := by
  simp only [abortActive, ha, hp, hr, Option.isSome_none, Bool.false_eq_true, if_false]

/-- A read that still waits is withdrawn. -/
theorem abortActive_waiting (ha : j.abort = false) (hp : j.phase = .reading) (hr : s.ac.exportRequest ≠ none) :
    abortActive s j = s.withdrawRead.endActive j .aborted := by
  simp only [abortActive, ha, hp, Option.isSome_iff_ne_none.mpr hr, Bool.false_eq_true, if_false, if_true]

theorem markAbort_withLi {rest : List Job} (li : Li) (hjobs : s.xu.jobs = j :: rest) :
    (s.withLi li).markAbort j = (s.withXu { s.xu with jobs := { j with abort := true } :: rest }).withLi li := by
  simp only [State.markAbort, State.withLi_xu, hjobs, List.tail_cons]
  rfl

end active

/-! ## The command -/

section abort

variable {l : Link} {b : BitVec 32} {s : State} {j k : Job} {rest before after : List Job}

theorem exec_exportAbort {s' : State} {r : Reply} (h : s.mayAsk l 40)
    (hbody : ∀ li, exportAbortTaken b (s.withLi li) = (s'.withLi li, r)) :
    exec (.exportAbort l (.fits b)) s = .next { s' with li := s.li.passed l 40 r } :=
  congrArg Host.Outcome.next (Schedule.passRequest_of_body h hbody)

/-- A passed EXPORT_ABORT is what the Export Unit makes of it, with its reply set out (R193). -/
theorem exec_exportAbort_fits (h : s.mayAsk l 40) : exec (.exportAbort l (.fits b)) s =
    .next ((exportAbortTaken b (s.withLi (s.li.await l 40#8))).1.sendReply l s.li.nextRequest
      (exportAbortTaken b (s.withLi (s.li.await l 40#8))).2) :=
  congrArg Host.Outcome.next (passRequest_fits b exportAbortTaken h)

section taken

variable (li : Li) (hdue : s.xu.stallDue = false)
include hdue

theorem exportAbortTaken_absent (h : ∀ j ∈ s.xu.jobs, j.number ≠ b.toNat) :
    exportAbortTaken b (s.withLi li) = (s.withLi li, ⟨.notFound, []⟩) := by
  rw [exportAbortTaken, State.stallFirst_withLi li hdue]
  cases hjobs : s.xu.jobs with
  | nil => simp only [State.withLi_xu, hjobs, refuse]
  | cons j rest =>
    rw [hjobs] at h
    obtain ⟨hj, hrest⟩ := List.forall_mem_cons.mp h
    have hfind : rest.find? (fun x => x.number = b.toNat) = none := List.find?_eq_none.mpr fun x hx => by simpa using hrest x hx
    simp only [State.withLi_xu, hjobs, if_neg hj, hfind, refuse]

theorem exportAbortTaken_active (hjobs : s.xu.jobs = j :: rest) (hj : j.number = b.toNat) :
    exportAbortTaken b (s.withLi li) = (abortActive (s.withLi li) j, ⟨.ok, []⟩) := by
  rw [exportAbortTaken, State.stallFirst_withLi li hdue]
  simp only [State.withLi_xu, hjobs, if_pos hj]

theorem exportAbortTaken_queued (hjobs : s.xu.jobs = before ++ k :: after) (hbefore : before ≠ [])
    (hother : ∀ j ∈ before ++ after, j.number ≠ k.number) (hk : k.number = b.toNat) :
    exportAbortTaken b (s.withLi li) = ((s.withLi li).endJob k .aborted, ⟨.ok, []⟩) := by
  obtain ⟨head, front, rfl⟩ := List.exists_cons_of_ne_nil hbefore
  have hhead : head.number ≠ b.toNat := hk ▸ hother head List.mem_cons_self
  have hfront : front.find? (fun x => x.number = b.toNat) = none := List.find?_eq_none.mpr fun x hx =>
    by simpa [hk] using hother x (List.mem_cons_of_mem _ (List.mem_append_left _ hx))
  have hfind : (front ++ k :: after).find? (fun x => x.number = b.toNat) = some k := by
    rw [List.find?_append, hfront, Option.none_or]
    exact List.find?_cons_of_pos (decide_eq_true hk)
  have hcons : s.xu.jobs = head :: (front ++ k :: after) := hjobs
  rw [exportAbortTaken, State.stallFirst_withLi li hdue]
  simp only [State.withLi_xu, hcons, if_neg hhead, hfind]

end taken

variable (hask : s.mayAsk l 40) (hdue : s.xu.stallDue = false)
include hask hdue

/-- The active job is marked for abort (R185). -/
theorem exec_exportAbort_marked (hjobs : s.xu.jobs = j :: rest) (hj : j.number = b.toNat)
    (hmark : ∀ li, abortActive (s.withLi li) j = (s.withLi li).markAbort j) : exec (.exportAbort l (.fits b)) s = .next { s with
      xu := { s.xu with jobs := { j with abort := true } :: rest }, li := s.li.passed l 40 ⟨.ok, []⟩ } :=
  exec_exportAbort (s' := s.withXu { s.xu with jobs := { j with abort := true } :: rest }) hask fun li =>
    (exportAbortTaken_active li hdue hjobs hj).trans (by rw [hmark, markAbort_withLi li hjobs])

/-- A queued job ends ABORTED, and the others keep their order (R185, R187). -/
theorem exec_exportAbort_queued (hjobs : s.xu.jobs = before ++ k :: after) (hbefore : before ≠ [])
    (hother : ∀ j ∈ before ++ after, j.number ≠ k.number) (hk : k.number = b.toNat) :
    exec (.exportAbort l (.fits b)) s = .next { s with
      ru := s.ru.releaseOwned k.pin (.job k.number)
      xu := { s.xu with
        jobs := before ++ after
        endings := s.xu.endings.set k.link (some ⟨k.number, .aborted, k.sent, k.damaged, k.unavailable, k.absent⟩) }
      li := (s.li.passed l 40 ⟨.ok, []⟩).raiseOn k.link .exports } := by
  have hfilter := (congrArg (List.filter (fun x => decide (x.number ≠ k.number))) hjobs).trans (filter_number hother)
  rw [exec_exportAbort_fits hask, exportAbortTaken_queued _ hdue hjobs hbefore hother hk, State.endJob_eq]
  simp only [State.withLi_xu, hfilter]
  rfl

/-- The active job whose read waits ends ABORTED at once, with the read withdrawn (R185, R187). -/
theorem exec_exportAbort_waiting (hjobs : s.xu.jobs = j :: rest) (hj : j.number = b.toNat) (ha : j.abort = false)
    (hp : j.phase = .reading) (hr : s.ac.exportRequest ≠ none) : ∃ t, exec (.exportAbort l (.fits b)) s = .next t ∧
      t.xu.endings = s.xu.endings.set j.link (some ⟨j.number, .aborted, j.sent, j.damaged, j.unavailable, j.absent⟩) ∧
      (t.li.links.get j.link).flags.exports = true ∧
      (∀ h, tableGet s.ru.holds j.pin = some h → h.owner = .job j.number → t.ru.holds = tableErase s.ru.holds j.pin) ∧
      (∀ k ∈ t.xu.jobs, k.number ≠ j.number) ∧
      (rest = [] → t.xu.jobs = [] ∧ t.ac = { s.ac with exportRequest := none }) := by
  rw [exec_exportAbort_fits hask, exportAbortTaken_active _ hdue hjobs hj,
    abortActive_waiting (s := s.withLi (s.li.await l 40#8)) ha hp hr]
  have hended : Ended (s.withLi (s.li.await l 40#8)).withdrawRead _ j .aborted rest := endActive_ended .aborted hjobs
  refine ⟨_, rfl, hended.endings, ?_, hended.pin, endActive_gone _ j .aborted, fun hrest => ?_⟩
  · have hflag := congrArg (fun li : Li => (li.links.get j.link).flags.exports) hended.li
    refine hflag.trans ?_
    simp only [Li.raiseOn_get, if_true]
    rfl
  · obtain ⟨hnone, -, -, -, hac⟩ := hended.alone hrest
    exact ⟨hnone, hac⟩

end abort

/-! ## The obligation -/

/-- Settles O59, clause by clause: EXPORT_START by its checks in their order, EXPORT_ABORT by the place and the phase of the job. -/
theorem exportJobsAreQueuedAndAborted : Obligations.ExportJobsAreQueuedAndAborted := by
  unfold Obligations.ExportJobsAreQueuedAndAborted
  refine ⟨fun l a s hask hdue => ⟨?badArgument, fun hmask hrange => ⟨?wrongState, ?notFound, ?inRange, ?behind⟩⟩,
    fun l b s hask hdue => ⟨?absent, ?sending, fun j rest hjobs hj => ⟨?ending, ?granted, ?waiting⟩, ?queued, ?second⟩⟩
  case badArgument => exact fun h => exec_exportStart hask fun li => exportStartTaken_badArgument li hdue h
  case wrongState => exact fun h => exec_exportStart hask fun li => exportStartTaken_wrongState li hdue hmask hrange h
  case notFound =>
    exact fun hrec habsent hlength => exec_exportStart hask fun li =>
      exportStartTaken_notFound li hdue hmask hrange hrec (firstPresent_none hlength habsent)
  case inRange =>
    intro u v hrec hu hv hfloor huv hopen
    have hstart : Startable l a s u v := ⟨hask, hdue, hmask, hrange, hu, hv, ⟨hrec, hfloor, huv, hopen⟩⟩
    refine ⟨exec_exportStart_queueFull hstart, exec_exportStart_quota hstart, exec_exportStart_holdsFull hstart,
      fun i p hidle hquota hi hget hlow hp => ?_⟩
    have hroom : s.xu.jobs.length < 4 := by rw [hidle]; decide
    have hexec := exec_exportStart_first hstart hroom hquota hi hget hlow hidle
    obtain ⟨phase, hjobs, hreading, hsending⟩ := lookup_present
      (s := firstQueued (s.withRu (pinnedRu s u v i)) (acceptedJob l a s u v i))
      { acceptedJob l a s u v i with phase := .lookup } (mt Loudness.maskFeeds_eq_nil.mp hmask) rfl hp
    obtain ⟨-, -, hru, -⟩ := lookup_keeps (firstQueued (s.withRu (pinnedRu s u v i)) (acceptedJob l a s u v i))
      { acceptedJob l a s u v i with phase := .lookup }
    exact ⟨_, _, hexec, hru, rfl, hjobs, lookup_counter _, lookup_stallTimer _ _, lookup_endings _ _, rfl, hreading,
      fun g hg hstate => hsending ⟨g, hg, hstate⟩⟩
  case behind =>
    intro head tail u v i hrec hjobs hroom hu hv hfloor huv hopen hquota hi hget hlow
    have hstart : Startable l a s u v := ⟨hask, hdue, hmask, hrange, hu, hv, ⟨hrec, hfloor, huv, hopen⟩⟩
    have hexec := exec_exportStart_behind hstart hroom hquota hi hget hlow (by rw [hjobs]; nofun)
    exact ⟨acceptedJob l a s u v i, hexec, rfl, rfl, rfl, rfl, rfl, rfl, rfl, rfl, rfl⟩
  case absent => exact fun h => exec_exportAbort hask fun li => exportAbortTaken_absent li hdue h
  case sending =>
    exact fun j rest hjobs hj hp ha => exec_exportAbort_marked hask hdue hjobs hj fun li => abortActive_sending ha hp
  case ending =>
    exact fun h => exec_exportAbort hask fun li => (exportAbortTaken_active li hdue hjobs hj).trans (by rw [abortActive_ending h])
  case granted => exact fun ha hp hr => exec_exportAbort_marked hask hdue hjobs hj fun li => abortActive_granted ha hp hr
  case waiting => exact exec_exportAbort_waiting hask hdue hjobs hj
  case queued =>
    intro before k after hjobs hbefore hother hk
    exact ⟨_, exec_exportAbort_queued hask hdue hjobs hbefore hother hk, rfl, rfl, rfl⟩
  case second =>
    intro j k hjobs hne hk
    have hother : ∀ x ∈ [j] ++ [], x.number ≠ k.number := fun x hx => by rwa [List.mem_singleton.mp hx]
    refine ⟨_, exec_exportAbort_queued (before := [j]) hask hdue hjobs (List.cons_ne_nil _ _) hother hk,
      rfl, rfl, ?_, fun h => releaseOwned_holds⟩
    simp only [Li.raiseOn_get, if_true]
    rfl

end Sys2Proof.Proofs.Exports
end

section

namespace Sys2Proof.Proofs.Links

open Sys2Proof Sys2Proof.Machine

/-!
# What a block leaves of the Link Interface (R193, R199)

A block that takes a request, or an ending that it brings about, may raise attention flags. `unflagged` is everything else the Link Interface
holds: roles, slots, enables, master enables, the bytes driven, the replies on their way. One lemma for each operation that several commands
share says that it keeps this view, then one for each block's taking of a request.
-/

/-- The Link Interface of a state with no attention flag set. -/
def unflagged (s : State) : Li :=
  { s.li with links := s.li.links.map (fun x => { x with flags := Classes.none }) }

/-- A change of the Link Interface that leaves each link but its flags. -/
theorem unflagged_withLi {s : State} {links : Tri LinkState}
    (h : ∀ m, { links.get m with flags := Classes.none } = { s.li.links.get m with flags := Classes.none }) :
    unflagged (s.withLi { s.li with links := links }) = unflagged s := by
  refine congrArg (fun x => { s.li with links := x }) (Tri.ext_get fun m => ?_)
  rw [Tri.get_map, Tri.get_map]
  exact h m

/-- States with one view agree on each link but for its flags. -/
theorem link_of_unflagged {s t : State} (h : unflagged t = unflagged s) (m : Link) :
    (t.li.links.get m).role = (s.li.links.get m).role ∧ (t.li.links.get m).slot = (s.li.links.get m).slot ∧
      (t.li.links.get m).enables = (s.li.links.get m).enables ∧ (t.li.links.get m).master = (s.li.links.get m).master := by
  have hget := congrArg (fun x => x.links.get m) h
  simp only [unflagged, Tri.get_map, LinkState.mk.injEq] at hget
  obtain ⟨hrole, hslot, -, henables, hmaster, -⟩ := hget
  exact ⟨hrole, hslot, henables, hmaster⟩

/-! ## Flags, a due lapse, and the jobs of the Export Unit -/

section operations

variable (s : State)

theorem unflagged_flagAll (k : AttentionClass) : unflagged (s.flagAll k) = unflagged s := rfl

theorem unflagged_flagOn (l : Link) (k : AttentionClass) : unflagged (s.flagOn l k) = unflagged s :=
  unflagged_withLi fun m => by
    rw [Tri.get_update]
    split <;> rfl

theorem unflagged_lapseFirst : unflagged s.lapseFirst = unflagged s := by
  rcases Schedule.lapseFirst_cases s with h | h <;> rw [h]
  rfl

theorem unflagged_activate : unflagged s.activate = unflagged s := by
  obtain ⟨x, r, h⟩ := State.activate_frame s
  rw [h]
  rfl

theorem unflagged_endJob (j : Job) (st : EndStatus) : unflagged (s.endJob j st) = unflagged s :=
  unflagged_flagOn _ j.link .exports

theorem unflagged_endActive (j : Job) (st : EndStatus) : unflagged (s.endActive j st) = unflagged s :=
  (unflagged_activate _).trans (unflagged_endJob s j st)

theorem unflagged_stallFirst : unflagged s.stallFirst = unflagged s := by
  rcases State.stallFirst_cases s with h | ⟨j, rest, st, -, h⟩ <;> rw [h]
  exact unflagged_endActive s j st

theorem unflagged_queueJob (j : Job) : unflagged (s.queueJob j) = unflagged s := by
  unfold State.queueJob
  simp only
  split
  · exact unflagged_activate _
  · rfl

theorem unflagged_abortActive (j : Job) : unflagged (abortActive s j) = unflagged s := by
  unfold abortActive
  split
  · rfl
  · split
    · rfl
    · rfl
    · split
      · exact unflagged_endActive s.withdrawRead j _
      · rfl
    · exact unflagged_endActive s j _
    · exact unflagged_endActive s j _

theorem unflagged_abortAll (js : List Job) : unflagged (s.abortAll js) = unflagged s := by
  unfold State.abortAll
  induction js generalizing s with
  | nil => rfl
  | cons j js ih => exact (ih _).trans (unflagged_endJob s j _)

theorem unflagged_resetExports : unflagged s.resetExports = unflagged s := by
  unfold State.resetExports
  split
  · rfl
  · split
    · exact unflagged_abortAll _ _
    · exact unflagged_abortAll s _

end operations

/-! ## Blocks that leave the Link Interface alone -/

section untouched

variable (s : State)

theorem meterTaken_li (b : Byte) : (meterTaken b s).1.li = s.li := by
  unfold meterTaken
  split <;> rfl

theorem segmentReadTaken_li (a : SegmentReadArgs) : (segmentReadTaken a s).1.li = s.li := by
  unfold segmentReadTaken
  split
  · rfl
  · split
    · rfl
    · split <;> rfl

theorem segmentListTaken_li (a : SegmentListArgs) : (segmentListTaken a s).1.li = s.li := by
  unfold segmentListTaken
  simp only
  split
  · rfl
  · split <;> rfl

theorem incidentFetchTaken_li (l : Link) (start : Option (BitVec 32)) : (incidentFetchTaken l start s).1.li = s.li := by
  unfold incidentFetchTaken
  split
  · rfl
  · split <;> rfl

theorem holdListTaken_li (b : Byte) : (holdListTaken b s).1.li = s.li := by
  unfold holdListTaken
  split <;> rfl

theorem limitsReadTaken_li (b : Byte) : (limitsReadTaken b s).1.li = s.li := by
  unfold limitsReadTaken
  split <;> rfl

theorem policyReadTaken_li (b : Byte) : (policyReadTaken b s).1.li = s.li := by
  unfold policyReadTaken
  split <;> rfl

theorem archiveReadTaken_li (a : ArchiveReadArgs) : (archiveReadTaken a s).1.li = s.li := by
  unfold archiveReadTaken
  split <;> rfl

theorem limitsWriteTaken_li (a : LimitsWriteArgs) : (limitsWriteTaken a s).1.li = s.li := by
  unfold limitsWriteTaken
  split <;> rfl

theorem policyWriteTaken_li (a : PolicyWriteArgs) : (policyWriteTaken a s).1.li = s.li := by
  unfold policyWriteTaken
  split <;> rfl

theorem feedSetTaken_li (a : FeedSetArgs) : (feedSetTaken a s).1.li = s.li := by
  unfold feedSetTaken
  split <;> rfl

theorem holdPlaceTaken_li (l : Link) (a : HoldPlaceArgs) : (holdPlaceTaken l a s).1.li = s.li := by
  unfold holdPlaceTaken
  split <;> rfl

theorem holdReleaseTaken_li (a : HoldReleaseArgs) : (holdReleaseTaken a s).1.li = s.li := by
  unfold holdReleaseTaken
  split
  · rfl
  · split
    · rfl
    · split
      · rfl
      · unfold releaseByOwner
        simp only
        split <;> rfl

theorem incidentReviewTaken_li (a : IncidentReviewArgs) : (incidentReviewTaken a s).1.li = s.li := by
  unfold incidentReviewTaken
  split
  · rfl
  · split
    · rfl
    · rfl
    · split
      · rfl
      · unfold reviewOpen
        split <;> rfl

theorem spareLaneTaken_li (a : SpareLaneSetArgs) : (spareLaneTaken a s).1.li = s.li := by
  unfold spareLaneTaken
  split
  · split
    · rfl
    · split <;> rfl
  · rfl

end untouched

/-! ## Blocks that may raise flags -/

section flagging

variable (s : State)

theorem unflagged_of_li {s t : State} (h : t.li = s.li) : unflagged t = unflagged s := by
  unfold unflagged
  rw [h]

theorem unflagged_statusTaken (l : Link) (u : Unit) : unflagged (statusTaken l u s).1 = unflagged s :=
  (unflagged_stallFirst _).trans (unflagged_lapseFirst s)

theorem unflagged_claimTaken (l : Link) (u : Unit) : unflagged (claimTaken l u s).1 = unflagged s := by
  unfold claimTaken
  simp only
  split <;> exact unflagged_lapseFirst s

theorem unflagged_yieldTaken (l : Link) (u : Unit) : unflagged (yieldTaken l u s).1 = unflagged s := by
  rcases Schedule.yieldTaken_cases s l u with h | h <;> rw [h] <;> exact unflagged_lapseFirst s

theorem unflagged_timeSyncTaken (l : Link) (b : BitVec 32) : unflagged (timeSyncTaken l b s).1 = unflagged s := by
  rcases Schedule.timeSyncTaken_cases s l b with h | ⟨a, h⟩ | ⟨c, o, h⟩ <;> rw [h] <;> exact unflagged_lapseFirst s

theorem placeAnnouncement_li (x : Announcement) (r : Int) : (placeAnnouncement s x r).1.li = s.li := by
  unfold placeAnnouncement
  simp only
  split
  · rfl
  · split
    · rfl
    · split <;> rfl

theorem unflagged_announceTaken (l : Link) (a : AnnounceArgs) : unflagged (announceTaken l a s).1 = unflagged s := by
  unfold announceTaken
  simp only
  split
  · exact unflagged_lapseFirst s
  · split
    · exact unflagged_lapseFirst s
    · exact unflagged_lapseFirst s
    · exact (unflagged_of_li (placeAnnouncement_li _ _ _)).trans (unflagged_lapseFirst s)

theorem unflagged_withdrawTaken (l : Link) (a : WithdrawArgs) : unflagged (withdrawTaken l a s).1 = unflagged s := by
  rcases Schedule.withdrawTaken_cases s l a with h | ⟨mask, n, k, h⟩ <;> rw [h] <;> exact unflagged_lapseFirst s

theorem unflagged_heartbeatTaken (b : BitVec 16) : unflagged (heartbeatTaken b s).1 = unflagged s := unflagged_lapseFirst s

theorem unflagged_exportStartTaken (l : Link) (a : ExportStartArgs) : unflagged (exportStartTaken l a s).1 = unflagged s := by
  unfold exportStartTaken
  simp only
  split
  · exact unflagged_stallFirst s
  · split
    · exact unflagged_stallFirst s
    · split
      · unfold pinAndQueue
        split
        · exact unflagged_stallFirst s
        · split
          · exact unflagged_stallFirst s
          · exact unflagged_stallFirst s
          · exact (unflagged_queueJob _ _).trans (unflagged_stallFirst s)
      · exact unflagged_stallFirst s

theorem unflagged_exportAbortTaken (b : BitVec 32) : unflagged (exportAbortTaken b s).1 = unflagged s := by
  unfold exportAbortTaken
  simp only
  split
  · exact unflagged_stallFirst s
  · split
    · exact (unflagged_abortActive _ _).trans (unflagged_stallFirst s)
    · split
      · exact (unflagged_endJob _ _ _).trans (unflagged_stallFirst s)
      · exact unflagged_stallFirst s

theorem unflagged_measureRestartTaken (u : Unit) : unflagged (measureRestartTaken u s).1 = unflagged s := by
  unfold measureRestartTaken
  simp only
  split <;> exact unflagged_lapseFirst s

theorem unflagged_archiveMapTaken (bs : List Byte) : unflagged (archiveMapTaken bs s).1 = unflagged s := by
  unfold archiveMapTaken
  split
  · rfl
  · split <;> rfl

theorem unflagged_archiveTestTaken (u : Unit) : unflagged (archiveTestTaken u s).1 = unflagged s := by
  unfold archiveTestTaken
  split <;> rfl

theorem unflagged_archiveRecordTaken (u : Unit) : unflagged (archiveRecordTaken u s).1 = unflagged s := by
  unfold archiveRecordTaken
  split <;> rfl

theorem unflagged_archiveResetTaken (u : Unit) : unflagged (archiveResetTaken u s).1 = unflagged s := by
  rw [← unflagged_stallFirst s]
  unfold archiveResetTaken
  generalize s.stallFirst = x
  simp only
  split
  · rfl
  · rw [unflagged_flagAll, unflagged_resetExports]
    exact unflagged_of_li rfl

end flagging

end Sys2Proof.Proofs.Links
end

section

namespace Sys2Proof.Proofs.Links

open Sys2Proof Sys2Proof.Machine

/-!
# Every request is passed on or answered (R193, R195, R196)

`Handled` says how the command of a request is run: passed on to a block that leaves the Link Interface but for flags, or answered by the Link
Interface itself. `handled_of_request` finds it for each row of the request table; what holds of all requests then follows from the two shapes.
-/

/-- How the command of a request of kind `k` from link `l` is run. -/
inductive Handled (c : Instr) (l : Link) (k : Nat) : Prop where
  | passed {α : Type} (p : Payload α) (body : α → State → State × Reply) (hexec : ∀ s, exec c s = .next (passRequest k l p s body))
      (hlen : lengthFits c = payloadIs p) (hbody : ∀ a s, unflagged (body a s).1 = unflagged s)
  | answered {α : Type} (p : Payload α) (body : α → State → State × Reply) (hexec : ∀ s, exec c s = .next (answerRequest k l p s body))
      (hlen : lengthFits c = payloadIs p) (hkind : k = 11 ∨ k = 12)

theorem handled_of_request {c : Instr} {l : Link} {k : Nat} (h : requestKind c = some (l, k)) : Handled c l k := by
  cases c with
  | status l p => cases h; exact .passed p _ (fun _ => rfl) rfl fun u s => unflagged_statusTaken s l u
  | meter l p => cases h; exact .passed p _ (fun _ => rfl) rfl fun b s => unflagged_of_li (meterTaken_li s b)
  | segmentRead l p => cases h; exact .passed p _ (fun _ => rfl) rfl fun a s => unflagged_of_li (segmentReadTaken_li s a)
  | segmentList l p => cases h; exact .passed p _ (fun _ => rfl) rfl fun a s => unflagged_of_li (segmentListTaken_li s a)
  | incidentFetch l p => cases h; exact .passed p _ (fun _ => rfl) rfl fun b s => unflagged_of_li (incidentFetchTaken_li s l b)
  | holdList l p => cases h; exact .passed p _ (fun _ => rfl) rfl fun b s => unflagged_of_li (holdListTaken_li s b)
  | limitsRead l p => cases h; exact .passed p _ (fun _ => rfl) rfl fun b s => unflagged_of_li (limitsReadTaken_li s b)
  | policyRead l p => cases h; exact .passed p _ (fun _ => rfl) rfl fun b s => unflagged_of_li (policyReadTaken_li s b)
  | archiveRead l p => cases h; exact .passed p _ (fun _ => rfl) rfl fun a s => unflagged_of_li (archiveReadTaken_li s a)
  | captureRead l p => cases h; exact .passed p _ (fun _ => rfl) rfl fun _ _ => rfl
  | attentionSet l p => cases h; exact .answered p _ (fun _ => rfl) rfl (.inl rfl)
  | attentionClear l p => cases h; exact .answered p _ (fun _ => rfl) rfl (.inr rfl)
  | scheduleClaim l p => cases h; exact .passed p _ (fun _ => rfl) rfl fun u s => unflagged_claimTaken s l u
  | scheduleYield l p => cases h; exact .passed p _ (fun _ => rfl) rfl fun u s => unflagged_yieldTaken s l u
  | timeSync l p => cases h; exact .passed p _ (fun _ => rfl) rfl fun b s => unflagged_timeSyncTaken s l b
  | announce l p => cases h; exact .passed p _ (fun _ => rfl) rfl fun a s => unflagged_announceTaken s l a
  | withdraw l p => cases h; exact .passed p _ (fun _ => rfl) rfl fun a s => unflagged_withdrawTaken s l a
  | limitsWrite l p => cases h; exact .passed p _ (fun _ => rfl) rfl fun a s => unflagged_of_li (limitsWriteTaken_li s a)
  | policyWrite l p => cases h; exact .passed p _ (fun _ => rfl) rfl fun a s => unflagged_of_li (policyWriteTaken_li s a)
  | feedSet l p => cases h; exact .passed p _ (fun _ => rfl) rfl fun a s => unflagged_of_li (feedSetTaken_li s a)
  | heartbeatSet l p => cases h; exact .passed p _ (fun _ => rfl) rfl fun b s => unflagged_heartbeatTaken s b
  | holdPlace l p => cases h; exact .passed p _ (fun _ => rfl) rfl fun a s => unflagged_of_li (holdPlaceTaken_li s l a)
  | holdRelease l p => cases h; exact .passed p _ (fun _ => rfl) rfl fun a s => unflagged_of_li (holdReleaseTaken_li s a)
  | incidentReview l p => cases h; exact .passed p _ (fun _ => rfl) rfl fun a s => unflagged_of_li (incidentReviewTaken_li s a)
  | exportStart l p => cases h; exact .passed p _ (fun _ => rfl) rfl fun a s => unflagged_exportStartTaken s l a
  | exportAbort l p => cases h; exact .passed p _ (fun _ => rfl) rfl fun b s => unflagged_exportAbortTaken s b
  | captureClear l p => cases h; exact .passed p _ (fun _ => rfl) rfl fun _ _ => rfl
  | measureRestart l p => cases h; exact .passed p _ (fun _ => rfl) rfl fun u s => unflagged_measureRestartTaken s u
  | archiveMap l groups => cases h; exact .passed (.fits groups) _ (fun _ => rfl) rfl fun a s => unflagged_archiveMapTaken s a
  | archiveTest l p => cases h; exact .passed p _ (fun _ => rfl) rfl fun u s => unflagged_archiveTestTaken s u
  | archiveRecord l p => cases h; exact .passed p _ (fun _ => rfl) rfl fun u s => unflagged_archiveRecordTaken s u
  | archiveReset l p => cases h; exact .passed p _ (fun _ => rfl) rfl fun u s => unflagged_archiveResetTaken s u
  | spareLaneSet l p => cases h; exact .passed p _ (fun _ => rfl) rfl fun a s => unflagged_of_li (spareLaneTaken_li s a)
  | _ => cases h

theorem payload_fits {α : Type} {p : Payload α} (h : payloadIs p = true) : ∃ a, p = .fits a := by
  cases p with
  | fits a => exact ⟨a, rfl⟩
  | wrongLength => cases h

theorem payload_wrongLength {α : Type} {p : Payload α} (h : payloadIs p = false) : p = .wrongLength := by
  cases p with
  | fits a => cases h
  | wrongLength => rfl

/-! ## Requests that go no further than the Link Interface (R190, R196) -/

section refusals

variable {c : Instr} {l : Link} {k : Nat} {s : State}

theorem exec_request_held (h : requestKind c = some (l, k)) (hheld : s.li.resetHeld = true) : exec c s = .next s := by
  cases handled_of_request h with
  | passed p body hexec => rw [hexec, passRequest_held p body hheld]
  | answered p body hexec => rw [hexec, answerRequest_held p body hheld]

theorem exec_request_role (h : requestKind c = some (l, k)) (hr : s.li.resetHeld = false)
    (hrole : reachesKind (s.li.links.get l).role k = false) :
    exec c s = .next (s.withLi (s.li.answer l (BitVec.ofNat 8 k) ⟨.role, []⟩)) := by
  cases handled_of_request h with
  | passed p body hexec => rw [hexec, passRequest_role p body hr hrole]
  | answered p body hexec => rw [hexec, answerRequest_role p body hr hrole]

theorem exec_request_length (h : requestKind c = some (l, k)) (hask : s.mayAsk l k) (hlength : lengthFits c = false) :
    exec c s = .next (s.withLi (s.li.answer l (BitVec.ofNat 8 k) ⟨.badArgument, []⟩)) := by
  cases handled_of_request h with
  | passed p body hexec hlen =>
    obtain rfl := payload_wrongLength (hlen.symm.trans hlength)
    rw [hexec, passRequest_length body hask]
  | answered p body hexec hlen =>
    obtain rfl := payload_wrongLength (hlen.symm.trans hlength)
    rw [hexec, answerRequest_length body hask]

end refusals

/-- The kinds between the rows of the request table (R195). -/
theorem requestRow_none {n : Nat} (h : 12 < n ∧ n < 16 ∨ 20 < n ∧ n < 32 ∨ 47 < n) : requestRow n = none := by
  unfold requestRow
  rw [if_neg (by omega), if_neg (by omega), if_neg (by omega)]

theorem exec_unknownRequest {l : Link} {kind : Byte} {payload : List Byte} {s : State}
    (hrow : requestRow kind.toNat = none) (hlen : payload.length ≤ 248) (hr : s.li.resetHeld = false) :
    exec (.unknownRequest l kind payload) s = .next (s.withLi (s.li.answer l kind ⟨.unknown, []⟩)) := by
  refine congrArg Host.Outcome.next ((if_pos ⟨?_, hlen⟩).trans (State.received_of _ hr))
  rw [hrow]
  rfl

/-- A frame that arrives while the RESET pin is held leaves the state as it is, whatever it would bring about. -/
theorem received_or_same {s t : State} {p : Prop} [Decidable p] (hheld : s.li.resetHeld = true) :
    (if p then s.received t else s) = s := by
  rw [State.received_held t hheld, ite_self]

/-- Settles O7: what `Handled` says of a request, and the frames that are no request of the table. -/
theorem requestsRefusedAtTheLink : Obligations.RequestsRefusedAtTheLink := by
  unfold Obligations.RequestsRefusedAtTheLink
  refine ⟨fun l kind payload s hkind hlen hr => exec_unknownRequest (requestRow_none hkind) hlen hr,
    fun c l k s h hr hrole => exec_request_role h hr hrole, fun c l k s h hask hlength => exec_request_length h hask hlength,
    fun s hheld => ⟨fun c l k h => exec_request_held h hheld, fun l kind payload => ?_, fun l payload n => ?_, fun l bytes => ?_⟩⟩
  · exact congrArg Host.Outcome.next (received_or_same hheld)
  · exact congrArg Host.Outcome.next (received_or_same hheld)
  · exact congrArg Host.Outcome.next (received_or_same hheld)

/-! ## Requests that are passed on (R193, R196 step 4) -/

theorem passed_get (li : Li) (l m : Link) (k : Nat) (r : Reply) :
    (li.passed l k r).links.get m =
      if m = l then { li.links.get m with slot := .waiting (BitVec.ofNat 8 k) li.nextRequest, dataOut := [] } else li.links.get m :=
  Tri.get_update li.links l m _

/-- What a request that was passed on leaves of the Link Interface, but for flags: the slot WAITING on it, and the reply of its block on its way. -/
theorem unflagged_passed {α : Type} {k : Nat} {l : Link} {s : State} {body : α → State → State × Reply} (a : α)
    (hask : s.mayAsk l k) (hbody : ∀ x, unflagged (body a x).1 = unflagged x) :
    ∃ r, unflagged (passRequest k l (.fits a) s body) = unflagged (s.withLi (s.li.passed l k r)) := by
  rw [passRequest_fits a body hask]
  refine ⟨(body a (s.withLi (s.li.await l (BitVec.ofNat 8 k)))).2, ?_⟩
  generalize (body a (s.withLi (s.li.await l (BitVec.ofNat 8 k)))).2 = r
  exact congrArg (fun x : Li => { x with replies := x.replies ++ [(⟨l, s.li.nextRequest, r⟩ : ReplyInFlight)] }) (hbody _)

/-- Settles O8: the block that takes the request leaves all but flags, so the slot waits and the one reply is on its way as the Link Interface left them. -/
theorem passedRequestWaitsForItsReply : Obligations.PassedRequestWaitsForItsReply := by
  unfold Obligations.PassedRequestWaitsForItsReply
  intro c l k s h h11 h12 hask hlength
  cases handled_of_request h with
  | answered p body hexec hlen hkind => exact absurd hkind (not_or.mpr ⟨h11, h12⟩)
  | passed p body hexec hlen hbody =>
    obtain ⟨a, rfl⟩ := payload_fits (hlen.symm.trans hlength)
    obtain ⟨r, hleft⟩ := unflagged_passed a hask (hbody a)
    have hlink := link_of_unflagged hleft
    simp only [State.withLi_li, passed_get] at hlink
    refine ⟨_, r, hexec s, ?_, congrArg Li.replies hleft, congrArg Li.nextRequest hleft, fun m hm => ?_, fun m => ?_⟩
    · obtain ⟨-, hslot, -⟩ := hlink l
      rw [hslot, if_pos rfl]
    · obtain ⟨-, hslot, -⟩ := hlink m
      rw [hslot, if_neg hm]
    · obtain ⟨-, -, henables, hmaster⟩ := hlink m
      rw [henables, hmaster]
      split <;> exact ⟨rfl, rfl⟩

/-! ## Roles (R195) -/

theorem roles_of_unflagged {s t : State} (h : unflagged t = unflagged s) : Schedule.roles t.li = Schedule.roles s.li :=
  Tri.ext_get fun m => by
    obtain ⟨hrole, -⟩ := link_of_unflagged h m
    simpa [Schedule.roles] using hrole

theorem roles_passRequest {α : Type} {k : Nat} {l : Link} {p : Payload α} {s : State} {body : α → State → State × Reply}
    (hbody : ∀ a x, unflagged (body a x).1 = unflagged x) : Schedule.roles (passRequest k l p s body).li = Schedule.roles s.li :=
  Schedule.passRequest_keeps (P := fun x => Schedule.roles x.li = Schedule.roles s.li)
    (fun hv hx => (congrArg Schedule.ScheduleView.roles hv).trans hx)
    (fun a x _ hx => (roles_of_unflagged (hbody a x)).trans (congrArg Schedule.ScheduleView.roles hx)) rfl

/-- The roles stand through every command that does not sample the straps; while the RESET pin is held they are those sampled last (log entry 51). -/
theorem exec_keeps_roles {c : Instr} {s t : State} (hpower : ∀ x, c ≠ .powerOn x) (hreset : ∀ x, c ≠ .resetPin (.released x))
    (h : exec c s = .next t) : Schedule.roles t.li = Schedule.roles s.li := by
  have of_request : ∀ {l k}, requestKind c = some (l, k) → k ≠ 11 → k ≠ 12 → Schedule.roles t.li = Schedule.roles s.li := by
    intro l k hreq h11 h12
    cases handled_of_request hreq with
    | answered p body hexec hlen hkind => exact absurd hkind (not_or.mpr ⟨h11, h12⟩)
    | passed p body hexec hlen hbody =>
      obtain rfl := Host.Outcome.next.inj ((hexec s).symm.trans h)
      exact roles_passRequest hbody
  cases c with
  | powerOn x => exact absurd rfl (hpower x)
  | resetPin pin =>
    obtain rfl := Host.Outcome.next.inj h
    cases pin with
    | held => rfl
    | released x => exact absurd rfl (hreset x)
  | tickClose xbsy =>
    obtain rfl := Host.Outcome.next.inj h
    split
    · obtain ⟨-, -, -, hroles⟩ := Schedule.closeTick_su s xbsy
      exact hroles.trans (Schedule.roles_lapseFirst s)
    · rfl
  | heartbeatLapse =>
    obtain rfl := Host.Outcome.next.inj h
    exact Schedule.roles_lapseFirst s
  | settlement f =>
    rcases Schedule.execSettlement_cases h with rfl | ⟨-, -, -, -, hroles⟩
    · rfl
    · exact hroles
  | status _ _ | scheduleClaim _ _ | scheduleYield _ _ | timeSync _ _ | announce _ _ | withdraw _ _ | heartbeatSet _ _
  | measureRestart _ _ => exact of_request rfl (by decide) (by decide)
  | _ => exact congrArg Schedule.ScheduleView.roles (Schedule.exec_scheduleView rfl h)

/-- The command of a good frame is the request of its kind (R195, R196). -/
theorem requestKind_requestOf {l : Link} {kind : Byte} (payload : List Byte) (h : kindListed kind = true) (h0 : kind ≠ 0) :
    requestKind (requestOf l kind payload) = some (l, kind.toNat) := by
  have hpos : 0 < kind.toNat := Nat.pos_of_ne_zero fun h => h0 (BitVec.eq_of_toNat_eq h)
  have hlisted : kind.toNat ≤ 12 ∨ 16 ≤ kind.toNat ∧ kind.toNat ≤ 20 ∨ 32 ≤ kind.toNat ∧ kind.toNat ≤ 47 := by
    simpa [kindListed, or_assoc] using h
  unfold requestOf
  generalize kind.toNat = n at *
  obtain hany | ⟨hlow, hhigh⟩ | ⟨hlow, hhigh⟩ := hlisted <;> interval_cases n <;> rfl

theorem restart_role (s : State) (straps : Tri Straps) (l : Link) :
    ((s.restart straps).li.links.get l).role = roleOf (straps.get l) := by
  have hget : (s.restart straps).li.links.get l = LinkState.reset ((straps.map roleOf).get l) := Tri.get_map _ _ l
  rw [hget, Tri.get_map]
  rfl

/-- Settles O6: the straps at a sampling, the role between samplings, and the rows of the request table. -/
theorem strapsFixTheRoles : Obligations.StrapsFixTheRoles := by
  unfold Obligations.StrapsFixTheRoles
  refine ⟨fun straps s t l h => ?_, fun c s t l hpower hreset h => Schedule.role_eq_of_roles (exec_keeps_roles hpower hreset h) l,
    reachesKind_iff, fun l kind payload h h0 => requestKind_requestOf payload h h0⟩
  have ht : t = s.restart straps := h.elim (fun h => (Host.Outcome.next.inj h).symm) fun h => (Host.Outcome.next.inj h).symm
  rw [ht]
  exact restart_role s straps l

end Sys2Proof.Proofs.Links
end

section

namespace Sys2Proof.Proofs.Links

open Sys2Proof Sys2Proof.Machine

/-!
# The frame of a request decodes to the request (R190, R192, R196, R197)

The bytes of each payload read back as its fields, a good frame is decoded by its kind, and the request of a kind reads its own payload.
-/

/-! ## Words and their bytes -/

theorem word16_bytes (x : BitVec 16) : word16 (x.extractLsb' 8 8) (x.extractLsb' 0 8) = x :=
  (BitVec.extractLsb'_append_extractLsb'_eq_extractLsb' rfl).trans BitVec.extractLsb'_eq_self

theorem word32_bytes (x : BitVec 32) :
    word32 (x.extractLsb' 24 8) (x.extractLsb' 16 8) (x.extractLsb' 8 8) (x.extractLsb' 0 8) = x := by
  have hhigh : word16 (x.extractLsb' 24 8) (x.extractLsb' 16 8) = x.extractLsb' 16 16 :=
    BitVec.extractLsb'_append_extractLsb'_eq_extractLsb' rfl
  have hlow : word16 (x.extractLsb' 8 8) (x.extractLsb' 0 8) = x.extractLsb' 0 16 :=
    BitVec.extractLsb'_append_extractLsb'_eq_extractLsb' rfl
  rw [word32, hhigh, hlow]
  exact (BitVec.extractLsb'_append_extractLsb'_eq_extractLsb' rfl).trans BitVec.extractLsb'_eq_self

theorem word48_bytes (x : BitVec 48) :
    word48 (x.extractLsb' 40 8) (x.extractLsb' 32 8) (x.extractLsb' 24 8) (x.extractLsb' 16 8) (x.extractLsb' 8 8)
      (x.extractLsb' 0 8) = x := by
  have h1 : word16 (x.extractLsb' 40 8) (x.extractLsb' 32 8) = x.extractLsb' 32 16 :=
    BitVec.extractLsb'_append_extractLsb'_eq_extractLsb' rfl
  have h2 : word16 (x.extractLsb' 24 8) (x.extractLsb' 16 8) = x.extractLsb' 16 16 :=
    BitVec.extractLsb'_append_extractLsb'_eq_extractLsb' rfl
  have h3 : word16 (x.extractLsb' 8 8) (x.extractLsb' 0 8) = x.extractLsb' 0 16 :=
    BitVec.extractLsb'_append_extractLsb'_eq_extractLsb' rfl
  have hhigh : x.extractLsb' 32 16 ++ x.extractLsb' 16 16 = x.extractLsb' 16 32 :=
    BitVec.extractLsb'_append_extractLsb'_eq_extractLsb' rfl
  rw [word48, word32, h1, h2, h3, hhigh]
  exact (BitVec.extractLsb'_append_extractLsb'_eq_extractLsb' rfl).trans BitVec.extractLsb'_eq_self

/-! ## Payloads read back as their fields (R197) -/

theorem payload16_bytes (x : BitVec 16) : payload16 (bytes16 x) = .fits x := congrArg Payload.fits (word16_bytes x)

theorem payload32_bytes (x : BitVec 32) : payload32 (bytes32 x) = .fits x := congrArg Payload.fits (word32_bytes x)

theorem payloadSegmentRead_bytes (a : SegmentReadArgs) :
    payloadSegmentRead (a.slot :: trailingBytes bytes48 a.openTick) = .fits a := by
  obtain ⟨slot, _ | t⟩ := a
  · rfl
  · simp only [trailingBytes, bytes48, payloadSegmentRead, word48_bytes]

theorem payloadSegmentList_bytes (a : SegmentListArgs) :
    payloadSegmentList (a.mask :: a.selector :: trailingBytes bytes48 a.after) = .fits a := by
  obtain ⟨mask, selector, _ | t⟩ := a
  · rfl
  · simp only [trailingBytes, bytes48, payloadSegmentList, word48_bytes]

theorem payloadIncidentFetch_bytes (a : Option (BitVec 32)) : payloadIncidentFetch (trailingBytes bytes32 a) = .fits a := by
  cases a with
  | none => rfl
  | some n => simp only [trailingBytes, bytes32, payloadIncidentFetch, word32_bytes]

theorem payloadArchiveRead_bytes (a : ArchiveReadArgs) : payloadArchiveRead (a.part :: bytes16 a.position) = .fits a := by
  simp only [bytes16, payloadArchiveRead, word16_bytes]

theorem payloadAnnounce_bytes (a : AnnounceArgs) :
    payloadAnnounce (a.kind :: bytes32 a.segmentId ++ a.mask :: bytes32 a.time
      ++ [a.limitSet, a.requirement.form, a.requirement.tag.a, a.requirement.tag.b, a.requirement.tag.c]) = .fits a := by
  simp only [bytes32, List.cons_append, List.nil_append, payloadAnnounce, word32_bytes]

theorem payloadWithdraw_bytes (a : WithdrawArgs) : payloadWithdraw (bytes32 a.segmentId ++ [a.kind, a.mask]) = .fits a := by
  simp only [bytes32, List.cons_append, List.nil_append, payloadWithdraw, word32_bytes]

/-- A field preceded by its byte is read off the front. -/
theorem optional16_bytes (o : Option (BitVec 16)) (rest : List Byte) : optional16 (optionalBytes bytes16 o ++ rest) = some (o, rest) := by
  have hno : choiceOf 0 = some false := rfl
  have hyes : choiceOf 1 = some true := rfl
  cases o with
  | none => simp only [optionalBytes, List.cons_append, List.nil_append, optional16, hno]
  | some x => simp only [optionalBytes, bytes16, List.cons_append, List.nil_append, optional16, hyes, word16_bytes]

theorem payloadLimitsWrite_bytes (a : LimitsWriteArgs) :
    payloadLimitsWrite (a.index :: bytes16 a.target ++ bytes16 a.toleranceAbove ++ bytes16 a.toleranceBelow
      ++ optionalBytes bytes16 a.ceiling ++ bytes16 a.minBlocks ++ bytes16 a.speechThreshold ++ bytes16 a.maxGap
      ++ bytes16 a.minCoverage ++ optionalBytes bytes16 a.deadAir) = .fits a := by
  have hlast := optional16_bytes a.deadAir []
  rw [List.append_nil] at hlast
  simp only [bytes16, List.append_assoc, List.cons_append, List.nil_append, payloadLimitsWrite, optional16_bytes, hlast, word16_bytes]

theorem payloadPolicyWrite_bytes (a : PolicyWriteArgs) :
    payloadPolicyWrite (a.kind :: a.mode :: bytes16 a.preRoll ++ bytes16 a.postRoll ++ [a.autoHold]) = .fits a := by
  simp only [bytes16, List.cons_append, List.nil_append, payloadPolicyWrite, word16_bytes]

theorem payloadHoldPlace_bytes (a : HoldPlaceArgs) :
    payloadHoldPlace (bytes48 a.first ++ bytes48 a.last ++ bytes16 a.reason) = .fits a := by
  simp only [bytes48, bytes16, List.cons_append, List.nil_append, payloadHoldPlace, word48_bytes, word16_bytes]

theorem payloadHoldRelease_bytes (a : HoldReleaseArgs) : payloadHoldRelease (a.index :: bytes32 a.number) = .fits a := by
  simp only [bytes32, payloadHoldRelease, word32_bytes]

theorem payloadIncidentReview_bytes (a : IncidentReviewArgs) : payloadIncidentReview (bytes32 a.serial ++ [a.release]) = .fits a := by
  simp only [bytes32, List.cons_append, List.nil_append, payloadIncidentReview, word32_bytes]

theorem payloadExportStart_bytes (a : ExportStartArgs) :
    payloadExportStart (a.mask :: bytes48 a.first ++ bytes48 a.last) = .fits a := by
  simp only [bytes48, List.cons_append, List.nil_append, payloadExportStart, word48_bytes]

theorem payloadSpareLaneSet_bytes (a : SpareLaneSetArgs) :
    payloadSpareLaneSet (a.group :: a.rowBlock :: optionalBytes (fun k => [k]) a.lane ++ [a.quiet]) = .fits a := by
  obtain ⟨group, rowBlock, _ | lane, quiet⟩ := a <;> rfl

/-! ## Frames (R190 to R192) -/

/-- A frame laid out: kind, length, payload and the two bytes of the CRC. -/
theorem frameOf_eq (kind : Nat) (payload : List Byte) :
    frameOf kind payload = BitVec.ofNat 8 kind :: BitVec.ofNat 8 payload.length ::
      (payload ++ beBytes 2 (crc16 (BitVec.ofNat 8 kind :: BitVec.ofNat 8 payload.length :: payload)).toNat) := by
  simp only [frameOf, Recording.beBytes_one, withCrc, List.cons_append, List.nil_append]

theorem toNat_ofNat_length {n : Nat} (h : n ≤ 248) : (BitVec.ofNat 8 n).toNat = n := by
  rw [BitVec.toNat_ofNat]
  omega

/-- A frame with a payload that fits it is good, whatever its bytes. -/
theorem frameGood_frameOf {kind : Nat} {payload : List Byte} (h : payload.length ≤ 248) : frameGood (frameOf kind payload) = true := by
  have hlen := toNat_ofNat_length h
  have hcrc : crcGood (frameOf kind payload) payload.length = true := by
    rw [crcGood, decide_eq_true_iff, frameOf_eq, Nat.add_comm 2]
    simp only [List.drop_succ_cons, List.take_succ_cons, List.drop_left, List.take_left]
    exact List.take_of_length_le (Recording.beBytes_length 2 _).le
  have hall : (frameOf kind payload).length = frameLength payload.length := by
    rw [frameOf_eq, List.length_cons, List.length_cons, List.length_append, Recording.beBytes_length, frameLength]
    omega
  rw [frameOf_eq] at hcrc hall ⊢
  simp only [frameGood, hlen, hcrc, hall, le_refl, decide_true, Bool.and_true, ite_self, decide_eq_true_eq]
  exact h

/-- A good frame of a kind other than 0 is decoded by its kind and its payload. -/
theorem decodeTransaction_frameOf (l : Link) {kind : Nat} {payload : List Byte} (h0 : BitVec.ofNat 8 kind ≠ 0)
    (h : payload.length ≤ 248) :
    decodeTransaction l (frameOf kind payload) = some (requestOf l (BitVec.ofNat 8 kind) payload) := by
  have hgood := frameGood_frameOf (kind := kind) h
  have hlen := toNat_ofNat_length h
  rw [frameOf_eq] at hgood ⊢
  simp only [decodeTransaction, hgood, if_true, if_neg h0, hlen, List.take_left]

/-! ## Requests (R195, R196) -/

/-- The frame of command `c` carries kind `r.1` and payload `r.2`, which a frame can hold and which spell `c` on link `l`. -/
structure Spells (c : Instr) (l : Link) (r : Nat × List Byte) : Prop where
  fits : r.2.length ≤ 248
  kind : BitVec.ofNat 8 r.1 ≠ 0
  request : requestOf l (BitVec.ofNat 8 r.1) r.2 = c

/-- A request whose fields are laid out by `lay` and read back by `read`. -/
theorem spells_of_fields {α : Type} {l : Link} {n : Nat} {lay : α → List Byte} {read : List Byte → Payload α} {p : Payload α}
    {r : Nat × List Byte} (mk : Payload α → Instr) (h : (payloadBytes lay p).map (Prod.mk n) = some r)
    (hread : ∀ a, read (lay a) = .fits a) (hfits : ∀ a, (lay a).length ≤ 248 := by exact fun _ => Nat.le_of_ble_eq_true rfl)
    (hkind : BitVec.ofNat 8 n ≠ 0 := by decide)
    (hrequest : ∀ bs, requestOf l (BitVec.ofNat 8 n) bs = mk (read bs) := by exact fun _ => rfl) : Spells (mk p) l r := by
  cases p with
  | wrongLength => cases h
  | fits a =>
    cases h
    exact ⟨hfits a, hkind, (hrequest (lay a)).trans (congrArg mk (hread a))⟩

theorem trailing_length {α : Type} {f : α → List Byte} {n : Nat} (hf : ∀ a, (f a).length = n) (o : Option α) :
    (trailingBytes f o).length ≤ n := by
  cases o with
  | none => exact Nat.zero_le n
  | some a => exact (hf a).le

theorem optional_length {α : Type} {f : α → List Byte} {n : Nat} (hf : ∀ a, (f a).length = n) (o : Option α) :
    (optionalBytes f o).length ≤ n + 1 := by
  cases o with
  | none => exact Nat.succ_le_succ (Nat.zero_le n)
  | some a => exact Nat.succ_le_succ (hf a).le

theorem limitsWrite_length (a : LimitsWriteArgs) :
    (a.index :: bytes16 a.target ++ bytes16 a.toleranceAbove ++ bytes16 a.toleranceBelow
      ++ optionalBytes bytes16 a.ceiling ++ bytes16 a.minBlocks ++ bytes16 a.speechThreshold ++ bytes16 a.maxGap
      ++ bytes16 a.minCoverage ++ optionalBytes bytes16 a.deadAir).length ≤ 248 := by
  have hceiling := optional_length (f := bytes16) (n := 2) (fun _ => rfl) a.ceiling
  have hdeadAir := optional_length (f := bytes16) (n := 2) (fun _ => rfl) a.deadAir
  simp only [bytes16, List.length_append, List.length_cons, List.length_nil]
  omega

/-- The bytes of a well-formed request spell it on the request's link. -/
theorem spells_of_requestBytes {c : Instr} {r : Nat × List Byte} (hwf : c.wellFormed = true) (h : requestBytes c = some r) :
    ∃ l, (∃ k, requestKind c = some (l, k)) ∧ Spells c l r := by
  cases c with
  | status l p => exact ⟨l, ⟨_, rfl⟩, spells_of_fields (read := payloadNone) (.status l) h fun _ => rfl⟩
  | meter l p => exact ⟨l, ⟨_, rfl⟩, spells_of_fields (read := payloadByte) (.meter l) h fun _ => rfl⟩
  | segmentRead l p =>
    refine ⟨l, ⟨_, rfl⟩, spells_of_fields (.segmentRead l) h payloadSegmentRead_bytes fun a => ?_⟩
    have htick := trailing_length (f := bytes48) (n := 6) (fun _ => rfl) a.openTick
    simp only [List.length_cons]
    omega
  | segmentList l p =>
    refine ⟨l, ⟨_, rfl⟩, spells_of_fields (.segmentList l) h payloadSegmentList_bytes fun a => ?_⟩
    have hafter := trailing_length (f := bytes48) (n := 6) (fun _ => rfl) a.after
    simp only [List.length_cons]
    omega
  | incidentFetch l p =>
    refine ⟨l, ⟨_, rfl⟩, spells_of_fields (.incidentFetch l) h payloadIncidentFetch_bytes fun a => ?_⟩
    exact (trailing_length (f := bytes32) (n := 4) (fun _ => rfl) a).trans (by decide)
  | holdList l p => exact ⟨l, ⟨_, rfl⟩, spells_of_fields (read := payloadByte) (.holdList l) h fun _ => rfl⟩
  | limitsRead l p => exact ⟨l, ⟨_, rfl⟩, spells_of_fields (read := payloadByte) (.limitsRead l) h fun _ => rfl⟩
  | policyRead l p => exact ⟨l, ⟨_, rfl⟩, spells_of_fields (read := payloadByte) (.policyRead l) h fun _ => rfl⟩
  | archiveRead l p => exact ⟨l, ⟨_, rfl⟩, spells_of_fields (.archiveRead l) h payloadArchiveRead_bytes⟩
  | captureRead l p => exact ⟨l, ⟨_, rfl⟩, spells_of_fields (read := payloadNone) (.captureRead l) h fun _ => rfl⟩
  | attentionSet l p => exact ⟨l, ⟨_, rfl⟩, spells_of_fields (read := payloadAttentionSet) (.attentionSet l) h fun _ => rfl⟩
  | attentionClear l p => exact ⟨l, ⟨_, rfl⟩, spells_of_fields (read := payloadByte) (.attentionClear l) h fun _ => rfl⟩
  | scheduleClaim l p => exact ⟨l, ⟨_, rfl⟩, spells_of_fields (read := payloadNone) (.scheduleClaim l) h fun _ => rfl⟩
  | scheduleYield l p => exact ⟨l, ⟨_, rfl⟩, spells_of_fields (read := payloadNone) (.scheduleYield l) h fun _ => rfl⟩
  | timeSync l p => exact ⟨l, ⟨_, rfl⟩, spells_of_fields (.timeSync l) h payload32_bytes⟩
  | announce l p => exact ⟨l, ⟨_, rfl⟩, spells_of_fields (.announce l) h payloadAnnounce_bytes⟩
  | withdraw l p => exact ⟨l, ⟨_, rfl⟩, spells_of_fields (.withdraw l) h payloadWithdraw_bytes⟩
  | limitsWrite l p => exact ⟨l, ⟨_, rfl⟩, spells_of_fields (.limitsWrite l) h payloadLimitsWrite_bytes limitsWrite_length⟩
  | policyWrite l p => exact ⟨l, ⟨_, rfl⟩, spells_of_fields (.policyWrite l) h payloadPolicyWrite_bytes⟩
  | feedSet l p => exact ⟨l, ⟨_, rfl⟩, spells_of_fields (read := payloadFeedSet) (.feedSet l) h fun _ => rfl⟩
  | heartbeatSet l p => exact ⟨l, ⟨_, rfl⟩, spells_of_fields (.heartbeatSet l) h payload16_bytes⟩
  | holdPlace l p => exact ⟨l, ⟨_, rfl⟩, spells_of_fields (.holdPlace l) h payloadHoldPlace_bytes⟩
  | holdRelease l p => exact ⟨l, ⟨_, rfl⟩, spells_of_fields (.holdRelease l) h payloadHoldRelease_bytes⟩
  | incidentReview l p => exact ⟨l, ⟨_, rfl⟩, spells_of_fields (.incidentReview l) h payloadIncidentReview_bytes⟩
  | exportStart l p => exact ⟨l, ⟨_, rfl⟩, spells_of_fields (.exportStart l) h payloadExportStart_bytes⟩
  | exportAbort l p => exact ⟨l, ⟨_, rfl⟩, spells_of_fields (.exportAbort l) h payload32_bytes⟩
  | captureClear l p => exact ⟨l, ⟨_, rfl⟩, spells_of_fields (read := payloadNone) (.captureClear l) h fun _ => rfl⟩
  | measureRestart l p => exact ⟨l, ⟨_, rfl⟩, spells_of_fields (read := payloadNone) (.measureRestart l) h fun _ => rfl⟩
  | archiveMap l groups =>
    obtain rfl := Option.some.inj h
    exact ⟨l, ⟨_, rfl⟩, of_decide_eq_true hwf, (by decide : 43#8 ≠ 0), rfl⟩
  | archiveTest l p => exact ⟨l, ⟨_, rfl⟩, spells_of_fields (read := payloadNone) (.archiveTest l) h fun _ => rfl⟩
  | archiveRecord l p => exact ⟨l, ⟨_, rfl⟩, spells_of_fields (read := payloadNone) (.archiveRecord l) h fun _ => rfl⟩
  | archiveReset l p => exact ⟨l, ⟨_, rfl⟩, spells_of_fields (read := payloadNone) (.archiveReset l) h fun _ => rfl⟩
  | spareLaneSet l p =>
    refine ⟨l, ⟨_, rfl⟩, spells_of_fields (.spareLaneSet l) h payloadSpareLaneSet_bytes fun a => ?_⟩
    have hlane := optional_length (f := fun k : Byte => [k]) (n := 1) (fun _ => rfl) a.lane
    simp only [List.length_append, List.length_cons, List.length_nil]
    omega
  | _ => cases h

/-- Settles O14: the request's bytes fit a frame and spell the request, and a good frame is decoded by its kind. -/
theorem encodedRequestsDecode : Obligations.EncodedRequestsDecode := by
  unfold Obligations.EncodedRequestsDecode
  intro c bytes hwf h
  obtain ⟨r, hr, rfl⟩ := Option.map_eq_some_iff.mp h
  obtain ⟨l, hkind, hspells⟩ := spells_of_requestBytes hwf hr
  refine ⟨l, hkind, ?_⟩
  rw [decodeTransaction_frameOf l hspells.kind hspells.fits, hspells.request]

end Sys2Proof.Proofs.Links
end

section

namespace Sys2Proof.Proofs.Links

open Sys2Proof Sys2Proof.Machine

/-!
# Transactions and the reply slot (R190, R191, R193, R194)
-/

/-! ## The frame that a FETCH sends (R194) -/

/-- A reply frame laid out: status, kind, the length of the payload in two bytes, the payload. -/
theorem replyFrame_eq (kind : Byte) (r : Reply) :
    replyFrame kind r = withCrc ([BitVec.ofNat 8 r.status.code, kind] ++ beBytes 2 r.payload.length ++ r.payload) := by
  rw [replyFrame, Recording.beBytes_one]
  rfl

theorem replyFrame_empty (kind : Byte) (st : Status) : replyFrame kind ⟨st, []⟩ = withCrc [BitVec.ofNat 8 st.code, kind, 0, 0] := by
  have hpayload : (⟨st, []⟩ : Reply).payload = [] := rfl
  have hlength : beBytes 2 0 = [0, 0] := by decide
  rw [replyFrame_eq, hpayload, List.length_nil, hlength]
  rfl

/-- Settles O10, by the state of the slot. -/
theorem fetchSendsTheSlot : Obligations.FetchSendsTheSlot := by
  unfold Obligations.FetchSendsTheSlot
  intro l payload n s hlen hr
  refine congrArg Host.Outcome.next ((if_pos hlen).trans ((State.received_of _ hr).trans ?_))
  refine congrArg (fun g => s.withLi { s.li with links := s.li.links.update l g }) (funext fun x => ?_)
  obtain ⟨role, slot, flags, enables, master, out⟩ := x
  cases slot with
  | empty => exact congrArg (fun bs => LinkState.mk role _ flags enables master (bs.take n)) (replyFrame_empty 0 .pending)
  | waiting kind m => exact congrArg (fun bs => LinkState.mk role _ flags enables master (bs.take n)) (replyFrame_empty kind .pending)
  | ready kind r => exact congrArg (fun bs => LinkState.mk role _ flags enables master (bs.take n)) (replyFrame_eq kind r)

/-! ## A reply that arrives (R193) -/

/-- Settles O11: the reply behind `a` is taken off the list, and the slot of its link takes it or not. -/
theorem replyArrivesForItsRequest : Obligations.ReplyArrivesForItsRequest := by
  unfold Obligations.ReplyArrivesForItsRequest
  intro s a b r hreplies
  have hget : s.li.replies[a.length]? = some r := by
    rw [hreplies, List.getElem?_append_right (Nat.le_refl _), Nat.sub_self]
    rfl
  have hrest : s.li.replies.eraseIdx a.length = a ++ b := by
    rw [hreplies, List.eraseIdx_append_of_length_le (Nat.le_refl _), Nat.sub_self]
    rfl
  show execReplyArrival a.length s = _
  unfold execReplyArrival
  simp only [hget, hrest]
  refine congrArg (fun g => Host.Outcome.next (s.withLi { s.li with replies := a ++ b, links := s.li.links.update r.link g }))
    (funext fun x => ?_)
  obtain ⟨role, slot, flags, enables, master, out⟩ := x
  cases slot <;> rfl

/-! ## Frame errors (R190, R191) -/

/-- A good frame: a length that R190 allows, as many bytes as it says (FETCH: at least as many), and the CRC of R192. -/
theorem frameGood_iff (bytes : List Byte) : frameGood bytes = true ↔
    ∃ kind len rest, bytes = kind :: len :: rest ∧ len.toNat ≤ 248 ∧
      (kind ≠ 0 → bytes.length = 4 + len.toNat) ∧ (kind = 0 → 4 + len.toNat ≤ bytes.length) ∧
      (bytes.drop (2 + len.toNat)).take 2 = beBytes 2 (crc16 (bytes.take (2 + len.toNat))).toNat := by
  constructor
  · intro h
    obtain _ | ⟨kind, _ | ⟨len, rest⟩⟩ := bytes
    · cases h
    · cases h
    · simp only [frameGood, crcGood, frameLength, Bool.and_eq_true, decide_eq_true_eq] at h
      obtain ⟨⟨hlen, hcrc⟩, hcount⟩ := h
      refine ⟨kind, len, rest, rfl, hlen, fun hk => ?_, fun hk => ?_, hcrc⟩
      · rw [if_neg hk] at hcount
        exact of_decide_eq_true hcount
      · rw [if_pos hk] at hcount
        exact of_decide_eq_true hcount
  · rintro ⟨kind, len, rest, rfl, hlen, hother, hfetch, hcrc⟩
    simp only [frameGood, crcGood, frameLength, Bool.and_eq_true, decide_eq_true_eq]
    refine ⟨⟨hlen, hcrc⟩, ?_⟩
    split
    · exact decide_eq_true (hfetch ‹_›)
    · exact decide_eq_true (hother ‹_›)

/-- The bytes driven within a transaction that is a frame error: within a FETCH the error frame in the clocks left (R191). -/
def errorOut (bytes : List Byte) : List Byte := (slotFrame (errorSlot bytes)).take (errorClocks bytes)

theorem errorOut_other {bytes : List Byte} (h : bytes.headD 0 ≠ 0) : errorOut bytes = [] := by
  have hclocks : errorClocks bytes = 0 := by
    obtain _ | ⟨kind, _ | ⟨len, rest⟩⟩ := bytes
    · rfl
    · rfl
    · exact if_neg h
  rw [errorOut, hclocks, List.take_zero]

theorem errorOut_one (kind : Byte) : errorOut [kind] = [] := List.take_zero

theorem errorOut_fetch (len : Byte) (rest : List Byte) :
    errorOut (0 :: len :: rest) = (withCrc [4, 0, 0, 0]).take ((0 :: len :: rest : List Byte).length - (4 + len.toNat)) :=
  congrArg (List.take _) (replyFrame_empty 0 .frameError)

theorem exec_frameError {l : Link} {bytes : List Byte} {s : State} (hne : bytes ≠ []) (hbad : frameGood bytes = false)
    (hr : s.li.resetHeld = false) : exec (.frameError l bytes) s =
      .next (s.withLi { s.li with links := s.li.links.update l (fun x => x.afterError bytes) }) := by
  have herror : isFrameError bytes = true := by
    rw [isFrameError, hbad, List.isEmpty_eq_false_iff.mpr hne]
    rfl
  exact congrArg Host.Outcome.next ((if_pos herror).trans (State.received_of _ hr))

/-- Settles O9: the bytes driven are those of `errorOut`. -/
theorem frameErrorReplacesTheSlot : Obligations.FrameErrorReplacesTheSlot := by
  unfold Obligations.FrameErrorReplacesTheSlot
  refine ⟨frameGood_iff, fun l bytes s hne hbad hr => ⟨_, errorOut bytes, exec_frameError hne hbad hr, rfl, errorOut_other, ?_, ?_⟩⟩
  · rintro k rfl
    exact errorOut_one k
  · rintro len rest rfl
    exact errorOut_fetch len rest

end Sys2Proof.Proofs.Links
end

section

namespace Sys2Proof.Proofs.Links

open Sys2Proof Sys2Proof.Machine

/-!
# Attention (R199 to R201)

A set of classes is read class by class: `has` says whether a class is in it, `place` gives the class's bit in the byte of the set and its number as
the target of ATTENTION_SET.
-/

/-! ## Sets of classes -/

/-- Whether a class is in a set. -/
def has (c : Classes) : AttentionClass → Bool
  | .incident => c.incident
  | .warning => c.warning
  | .segment => c.segment
  | .exports => c.exports
  | .schedule => c.schedule
  | .archive => c.archive
  | .link => c.link

/-- The row of a class in R199. -/
def place : AttentionClass → Nat
  | .incident => 0
  | .warning => 1
  | .segment => 2
  | .exports => 3
  | .schedule => 4
  | .archive => 5
  | .link => 6

theorem place_lt (k : AttentionClass) : place k < 7 := by
  cases k <;> decide

theorem place_inj {j k : AttentionClass} : place j = place k → j = k := by
  cases j <;> cases k <;> decide

theorem exists_place {n : Nat} (h : n < 7) : ∃ k, place k = n := by
  interval_cases n
  exacts [⟨.incident, rfl⟩, ⟨.warning, rfl⟩, ⟨.segment, rfl⟩, ⟨.exports, rfl⟩, ⟨.schedule, rfl⟩, ⟨.archive, rfl⟩, ⟨.link, rfl⟩]

theorem toNat_eq_bits (c : Classes) : c.toNat = Nat.bit c.incident (Nat.bit c.warning (Nat.bit c.segment (Nat.bit c.exports
    (Nat.bit c.schedule (Nat.bit c.archive (Nat.bit c.link 0)))))) := by
  simp only [Classes.toNat, Nat.bit_val]
  omega

/-- The byte of a set has a class's bit exactly when the class is in it (R197, R199). -/
theorem toNat_testBit (c : Classes) (k : AttentionClass) : c.toNat.testBit (place k) = has c k := by
  rw [toNat_eq_bits]
  cases k <;> simp only [place, has, Nat.testBit_bit_zero, Nat.testBit_bit_succ]

theorem has_put (c : Classes) (k j : AttentionClass) (v : Bool) : has (c.put k v) j = if j = k then v else has c j := by
  cases k <;> cases j <;> rfl

theorem has_all (v : Bool) (k : AttentionClass) : has (Classes.all v) k = v := by
  cases k <;> rfl

theorem meet_iff {c d : Classes} : c.meet d = true ↔ ∃ k, has c k = true ∧ has d k = true := by
  simp only [Classes.meet, Bool.or_eq_true, Bool.and_eq_true]
  constructor
  · rintro ((((((h | h) | h) | h) | h) | h) | h)
    exacts [⟨.incident, h⟩, ⟨.warning, h⟩, ⟨.segment, h⟩, ⟨.exports, h⟩, ⟨.schedule, h⟩, ⟨.archive, h⟩, ⟨.link, h⟩]
  · rintro ⟨k, h⟩
    cases k <;> simp only [has] at h <;> simp only [h, and_self, true_or, or_true]

/-- Two sets have a class in common exactly when their bytes have a bit in common. -/
theorem meet_iff_testBit {c d : Classes} :
    c.meet d = true ↔ ∃ i, i < 7 ∧ c.toNat.testBit i = true ∧ d.toNat.testBit i = true := by
  rw [meet_iff]
  constructor
  · rintro ⟨k, hc, hd⟩
    exact ⟨place k, place_lt k, (toNat_testBit c k).trans hc, (toNat_testBit d k).trans hd⟩
  · rintro ⟨i, hi, hc, hd⟩
    obtain ⟨k, rfl⟩ := exists_place hi
    exact ⟨k, (toNat_testBit c k).symm.trans hc, (toNat_testBit d k).symm.trans hd⟩

/-! ## The target and the action of ATTENTION_SET (R200) -/

theorem attentionAction_eq {b : Byte} (h : b.toNat ≤ 1) : attentionAction b = some (decide (b = 0)) := by
  obtain h0 | h1 : b.toNat = 0 ∨ b.toNat = 1 := by omega
  · obtain rfl : b = 0 := BitVec.eq_of_toNat_eq h0
    rfl
  · obtain rfl : b = 1 := BitVec.eq_of_toNat_eq h1
    rfl

theorem attentionAction_none {b : Byte} (h : 1 < b.toNat) : attentionAction b = none := by
  obtain ⟨n, hn⟩ : ∃ n, b.toNat = n + 2 := ⟨b.toNat - 2, by omega⟩
  rw [attentionAction, hn]
  rfl

theorem attentionTarget_none {n : Nat} (h : 8 < n) (v : Bool) (x : LinkState) : attentionTarget n v x = none := by
  obtain ⟨m, rfl⟩ : ∃ m, n = m + 9 := ⟨n - 9, by omega⟩
  rfl

theorem attentionTarget_class (k : AttentionClass) (v : Bool) (x : LinkState) :
    attentionTarget (place k) v x = some { x with enables := x.enables.put k v } := by
  cases k <;> rfl

/-- What a target and an action make of a link: the enables by the bits of their byte, and the master enable. -/
structure Targeted (n : Nat) (v : Bool) (x y : LinkState) : Prop where
  flags : y.flags = x.flags
  role : y.role = x.role
  enables : ∀ i, i < 7 → y.enables.toNat.testBit i = if n = i ∨ n = 8 then v else x.enables.toNat.testBit i
  master : y.master = if 7 ≤ n then v else x.master

theorem attentionTarget_targeted {n : Nat} (h : n ≤ 8) (v : Bool) (x : LinkState) :
    ∃ y, attentionTarget n v x = some y ∧ Targeted n v x y := by
  obtain hclass | rfl | rfl : n < 7 ∨ n = 7 ∨ n = 8 := by omega
  · obtain ⟨k, rfl⟩ := exists_place hclass
    refine ⟨_, attentionTarget_class k v x, rfl, rfl, fun i hi => ?_, (if_neg (by omega)).symm⟩
    obtain ⟨j, rfl⟩ := exists_place hi
    rw [toNat_testBit, toNat_testBit, has_put]
    refine if_congr ⟨fun hj => .inl (hj ▸ rfl), fun hk => ?_⟩ rfl rfl
    exact place_inj (hk.resolve_right (by omega)).symm
  · exact ⟨_, rfl, rfl, rfl, fun i hi => (if_neg (by omega)).symm, rfl⟩
  · refine ⟨_, rfl, rfl, rfl, fun i hi => ?_, rfl⟩
    obtain ⟨j, rfl⟩ := exists_place hi
    rw [toNat_testBit, has_all, if_pos (.inr rfl)]

/-! ## Requests that the Link Interface answers (R196, R199, R200) -/

theorem set_set {α : Type} (o : Tri α) (i : Fin 3) (v w : α) : (o.set i v).set i w = o.set i w := by
  apply Tri.ext_get
  intro j
  simp only [Tri.get_set]
  split <;> rfl

/-- A request of the kinds 1 to 12 that changed its own link to `y` leaves that link with the answer in its slot, and nothing else changed. -/
theorem answerRequest_set {α : Type} {k : Nat} {l : Link} {s : State} {body : α → State → State × Reply} {a : α} {y : LinkState} {r : Reply}
    (hk : k ≤ 12) (hr : s.li.resetHeld = false) (hbody : body a s = (s.withLi { s.li with links := s.li.links.set l y }, r)) :
    answerRequest k l (.fits a) s body =
      { s with li := { s.li with links := s.li.links.set l { y with slot := .ready (BitVec.ofNat 8 k) r, dataOut := [] } } } := by
  rw [answerRequest_fits a body ⟨hr, reachesKind_any _ k hk⟩, hbody]
  simp only [State.withLi_li, Li.answer, Tri.update, Tri.get_set_same, set_set]
  rfl

theorem attentionSetTaken_refused {l : Link} {a : AttentionSetArgs} (s : State) (h : 8 < a.target.toNat ∨ 1 < a.action.toNat) :
    attentionSetTaken l a s = (s, ⟨.badArgument, []⟩) := by
  have hnone : (attentionAction a.action).bind (fun v => attentionTarget a.target.toNat v (s.li.links.get l)) = none := by
    obtain h | h := h
    · cases attentionAction a.action with
      | none => rfl
      | some v => exact attentionTarget_none h v _
    · rw [attentionAction_none h]
      rfl
  simp only [attentionSetTaken, hnone, refuse]

theorem attentionSetTaken_eq {l : Link} {a : AttentionSetArgs} {s : State} {y : LinkState} (ha : a.action.toNat ≤ 1)
    (hy : attentionTarget a.target.toNat (decide (a.action = 0)) (s.li.links.get l) = some y) :
    attentionSetTaken l a s =
      (s.withLi { s.li with links := s.li.links.set l y }, ⟨.ok, [.byte y.enables.toNat, .choice y.master]⟩) := by
  simp only [attentionSetTaken, attentionAction_eq ha, Option.bind_some, hy]

/-- Settles O12: the requests by `answerRequest_set`, the line by the classes that flags and enables have in common. -/
theorem attentionActsOnItsLinkAlone : Obligations.AttentionActsOnItsLinkAlone := by
  unfold Obligations.AttentionActsOnItsLinkAlone
  refine ⟨fun l b s hr => ⟨_, _, congrArg Host.Outcome.next (answerRequest_set (by decide) hr rfl), rfl, rfl⟩, fun l a s hr => ?_,
    fun x => ?_, fun li l => ?_⟩
  · by_cases hbad : 8 < a.target.toNat ∨ 1 < a.action.toNat
    · have hbody : attentionSetTaken l a s =
          (s.withLi { s.li with links := s.li.links.set l (s.li.links.get l) }, ⟨.badArgument, []⟩) := by
        rw [Tri.set_get_self]
        exact attentionSetTaken_refused s hbad
      refine ⟨_, _, congrArg Host.Outcome.next (answerRequest_set (by decide) hr hbody), rfl, rfl, rfl, rfl, ?_⟩
      rw [if_pos hbad]
      exact ⟨rfl, rfl, rfl⟩
    · obtain ⟨htarget, haction⟩ := not_or.mp hbad
      obtain ⟨y, hy, h⟩ := attentionTarget_targeted (Nat.not_lt.mp htarget) (decide (a.action = 0)) (s.li.links.get l)
      have hbody := attentionSetTaken_eq (Nat.not_lt.mp haction) hy
      refine ⟨_, _, congrArg Host.Outcome.next (answerRequest_set (by decide) hr hbody), rfl, h.flags, h.role, rfl, ?_⟩
      rw [if_neg hbad]
      exact ⟨h.enables, h.master, rfl⟩
  · rw [alertActive, Bool.or_eq_true, Bool.or_eq_true, Bool.and_eq_true, meet_iff_testBit, or_assoc]
  · rw [Li.alertLine, Bool.and_eq_true, Bool.not_eq_true']

end Sys2Proof.Proofs.Links
end

section

namespace Sys2Proof.Proofs.Steps

open Sys2Proof Sys2Proof.Machine

/-!
# A step and the queue of waiting commands

`step` looks at the queue alone: there is one equation for each form the queue can have.
-/

theorem step_of_pending_cons {c : Instr} {rest : List Instr} {s : State} (h : s.pending = c :: rest) :
    step s = exec c { s with pending := rest } := by
  rw [step, h]

/-- The part idles when no command waits (log entry 2). -/
theorem step_of_pending_nil {s : State} (h : s.pending = []) : step s = .next s := by
  rw [step, h]

/-- Settles O1: one equation for each form of the queue. -/
theorem stepTakesTheFrontCommand : Obligations.StepTakesTheFrontCommand := by
  unfold Obligations.StepTakesTheFrontCommand
  exact ⟨fun _ _ _ hcons => step_of_pending_cons hcons, fun _ hnil => step_of_pending_nil hnil⟩

end Sys2Proof.Proofs.Steps
end
